-- ==== Sys2Proof/Word.lean ====
section
/-! DEFINITION. The words of the machine and the sparse store every large array of the state is held in. -/

namespace Sys2Proof

/-- A byte of memory (R4: multi-byte values are little-endian). -/
abbrev Byte := BitVec 8

/-- A sequencer scalar register, a D-space word (R91, R92). -/
abbrev Half := BitVec 16

/-- A BAR0 register (R6). -/
abbrev Word := BitVec 32

/-- A pasture word, a matched-result register. -/
abbrev Dword := BitVec 64

/-- One bit for each processing element of a fold: bit `64 * y + x` belongs to PE (x, y) (R53). -/
abbrev Plane := BitVec 4096

/-- A sparse array in one canonical form: keys strictly rising, no entry equal to the default value. -/
abbrev Store (α : Type) := List (Nat × α)

end Sys2Proof
end

