-- ==== Sys2Proof/Machine/Bits.lean ====
section
/-! DEFINITION. Bit fields, byte order, counters and checksums: helpers every family uses. -/

namespace Sys2Proof

/-- Bits `hi:lo` of a register as a number. -/
def fld {w : Nat} (v : BitVec w) (hi lo : Nat) : Nat := (v.toNat >>> lo) % 2 ^ (hi + 1 - lo)

/-- One bit of a register. -/
def bit {w : Nat} (v : BitVec w) (i : Nat) : Bool := v.getLsbD i

/-- A register with bits `hi:lo` replaced. -/
def setFld {w : Nat} (v : BitVec w) (hi lo : Nat) (x : Nat) : BitVec w :=
  let m := BitVec.ofNat w ((2 ^ (hi + 1 - lo) - 1) <<< lo)
  (v &&& ~~~m) ||| (BitVec.ofNat w ((x % 2 ^ (hi + 1 - lo)) <<< lo))

/-- A register with one bit replaced. -/
def setBit {w : Nat} (v : BitVec w) (i : Nat) (b : Bool) : BitVec w := setFld v i i b.toNat

/-- A number placed at a bit position of a 32-bit register. -/
def at32 (x lo : Nat) : Word := BitVec.ofNat 32 (x <<< lo)

/-- A flag placed at a bit position of a 32-bit register. -/
def bit32 (b : Bool) (i : Nat) : Word := at32 b.toNat i

/-- Add to a counter field that saturates at all ones. -/
def satAdd {w : Nat} (v : BitVec w) (hi lo : Nat) (n : Nat) : BitVec w :=
  setFld v hi lo (min (fld v hi lo + n) (2 ^ (hi + 1 - lo) - 1))

/-- The little-endian number of a byte string (R4). -/
def leNat (l : List Byte) : Nat :=
  match l with
  | [] => 0
  | b :: t => b.toNat + 256 * leNat t

/-- The `n` little-endian bytes of a number (R4). -/
def leBytes (n x : Nat) : List Byte :=
  match n with
  | 0 => []
  | k + 1 => BitVec.ofNat 8 x :: leBytes k (x / 256)

/-- The big-endian number of a byte string (the wire formats of chapter 11). -/
def beNat (l : List Byte) : Nat := l.foldl (fun a b => a * 256 + b.toNat) 0

/-- The `n` big-endian bytes of a number. -/
def beBytes (n x : Nat) : List Byte := (leBytes n x).reverse

/-- `n` bytes of a byte string from an offset, 0 beyond its end. -/
def bytesAt (l : List Byte) (off n : Nat) : List Byte :=
  let t := (l.drop off).take n
  t ++ List.replicate (n - t.length) 0

/-- A little-endian field of a byte string. -/
def leAt (l : List Byte) (off n : Nat) : Nat := leNat (bytesAt l off n)

/-- The signed value of the low `n` bits of a number. -/
def signedOf (n x : Nat) : Int :=
  let v := x % 2 ^ n
  if 2 * v < 2 ^ n then (v : Int) else (v : Int) - (2 ^ n : Nat)

/-- The `n`-bit two's complement of an integer. -/
def wrapTo (n : Nat) (x : Int) : Nat := (x % (2 ^ n : Nat)).toNat

/-- The low bits of a number that are 1, counted. -/
def onesNat (fuel x : Nat) : Nat :=
  match fuel with
  | 0 => 0
  | k + 1 => if x = 0 then 0 else x % 2 + onesNat k (x / 2)

/-- How many bits are 1. -/
def popcount {w : Nat} (v : BitVec w) : Nat := onesNat w v.toNat

/-- A value when a condition holds. -/
def guardOpt {α : Type} (b : Bool) (x : α) : Option α := if b then some x else none

/-- One bit of a reflected checksum step. -/
def crcBit (poly : Nat) (c : Nat) : Nat := if c % 2 = 1 then (c / 2) ^^^ poly else c / 2

/-- A byte into a reflected checksum. -/
def crcByte (poly : Nat) (c : Nat) (b : Byte) : Nat :=
  (List.range 8).foldl (fun a _ => crcBit poly a) (c ^^^ b.toNat)

/-- CRC-32C, reflected, initial value and final inversion all ones (R286). -/
def crc32c (l : List Byte) : Nat :=
  (l.foldl (crcByte 0x82F63B78) 0xFFFFFFFF) ^^^ 0xFFFFFFFF

end Sys2Proof
end

