-- ==== Sys2Proof/Machine/Fp.lean ====
section
/-! DEFINITION. The arithmetic of the word engines: IEEE 754 binary32 and binary64 with exact intermediate results, and the
integer types (R175, R186 to R197). -/

namespace Sys2Proof.Machine

/-- A set of exceptions in TEN bit order: IOV, IDZ, NV, DZ, OF, UF, NX from bit 6 down (R174). -/
abbrev Exc := BitVec 7

def excNX : Exc := 0x01
def excUF : Exc := 0x02
def excOF : Exc := 0x04
def excDZ : Exc := 0x08
def excNV : Exc := 0x10
def excIDZ : Exc := 0x20
def excIOV : Exc := 0x40

/-- The rounding modes (R174). -/
inductive Rm
  | rne | rtz | rup | rdn
  deriving DecidableEq, Repr

/-- A binary format: precision, exponent of the smallest and the largest normal, width. -/
structure Fmt where
  p : Nat
  emin : Int
  emax : Int
  width : Nat
  deriving DecidableEq, Repr

def binary32 : Fmt := ⟨24, -126, 127, 32⟩
def binary64 : Fmt := ⟨53, -1022, 1023, 64⟩

/-- What rounding depends on: RM, FTZ and DAZ (R174, R194). -/
structure FpEnv where
  rm : Rm
  ftz : Bool
  daz : Bool
  deriving DecidableEq, Repr

/-- A floating-point datum: a NaN, signalling or not, an infinity, or (−1)^s × m × 2^e. -/
inductive Fp
  | nan (signalling : Bool)
  | inf (s : Bool)
  | fin (s : Bool) (m : Nat) (e : Int)
  deriving DecidableEq, Repr

/-- The exponent of a subnormal's unit in the last place. -/
def Fmt.elow (f : Fmt) : Int := f.emin - (f.p - 1 : Nat)

/-- The all-ones exponent field. -/
def Fmt.eones (f : Fmt) : Nat := 2 ^ (f.width - f.p) - 1

/-- The datum of a bit pattern; with DAZ a subnormal is a zero of its sign (R194). -/
def Fp.decode (f : Fmt) (daz : Bool) (x : Nat) : Fp :=
  let frac := x % 2 ^ (f.p - 1)
  let ex := x / 2 ^ (f.p - 1) % 2 ^ (f.width - f.p)
  let s := x / 2 ^ (f.width - 1) % 2 = 1
  if ex = f.eones then
    if frac = 0 then .inf s else .nan (frac < 2 ^ (f.p - 2))
  else if ex = 0 then .fin s (if daz then 0 else frac) f.elow
  else .fin s (frac + 2 ^ (f.p - 1)) (f.elow + (ex - 1 : Nat))

/-- A bit pattern with the sign bit set as asked. -/
def Fmt.signed (f : Fmt) (s : Bool) (mag : Nat) : Nat := mag + s.toNat * 2 ^ (f.width - 1)

/-- The canonical NaN (R195). -/
def Fmt.nan (f : Fmt) : Nat := f.eones * 2 ^ (f.p - 1) + 2 ^ (f.p - 2)

/-- An infinity. -/
def Fmt.infinity (f : Fmt) (s : Bool) : Nat := f.signed s (f.eones * 2 ^ (f.p - 1))

/-- The largest finite number M. -/
def Fmt.largest (f : Fmt) (s : Bool) : Nat := f.signed s (f.eones * 2 ^ (f.p - 1) - 1)

/-- How many bits a number has, 0 for 0. -/
def bitLen (x : Nat) : Nat := if x = 0 then 0 else Nat.log2 x + 1

/-- Whether a magnitude rounds away from zero: its kept part is odd, what is cut off stands to one half so, exact or
not. -/
def roundsUp (rm : Rm) (s odd : Bool) (half : Ordering) (inexact : Bool) : Bool :=
  match rm with
  | .rne => half == .gt || (half == .eq && odd)
  | .rtz => false
  | .rup => inexact && !s
  | .rdn => inexact && s

/-- The magnitude (m + δ) × 2^e, with 0 < δ < 1 when `sticky`, rounded to a multiple of 2^u: the multiple, and whether it is
inexact. -/
def roundAt (rm : Rm) (s : Bool) (m : Nat) (e : Int) (sticky : Bool) (u : Int) : Nat × Bool :=
  if u ≤ e then (m * 2 ^ (e - u).toNat, sticky)
  else
    let sh := (u - e).toNat
    if bitLen m + 1 < sh then
      let inexact := m ≠ 0 || sticky
      ((roundsUp rm s false .lt inexact).toNat, inexact)
    else
      let q := m / 2 ^ sh
      let r := m % 2 ^ sh
      let inexact := r ≠ 0 || sticky
      let half := if 2 * r = 2 ^ sh then (if sticky then .gt else .eq) else compare (2 * r) (2 ^ sh)
      (q + (roundsUp rm s (q % 2 = 1) half inexact).toNat, inexact)

/-- An overflowed result (R192). -/
def overflow (f : Fmt) (rm : Rm) (s : Bool) : Nat × Exc :=
  let toInf := match rm with
    | .rne => true
    | .rtz => false
    | .rup => !s
    | .rdn => s
  (if toInf then f.infinity s else f.largest s, excOF ||| excNX)

/-- Round a nonzero magnitude (m + δ) × 2^e into a format: the pattern and the exceptions (R191 to R194). -/
def roundTo (f : Fmt) (env : FpEnv) (s : Bool) (m : Nat) (e : Int) (sticky : Bool) : Nat × Exc :=
  let eu := e + bitLen m - f.p
  let free := roundAt env.rm s m e sticky eu
  let tiny := (bitLen free.1 : Int) + eu ≤ f.emin
  if tiny && env.ftz then (f.signed s 0, excUF ||| excNX)
  else
    let u := max eu f.elow
    let r := roundAt env.rm s m e sticky u
    if f.emax + 1 < (bitLen r.1 : Int) + u then overflow f env.rm s
    else
      let exc := (if r.2 then excNX else 0) ||| (if r.2 && tiny then excUF else 0)
      let mag := if u = f.elow then r.1 else r.1 + (u - f.elow).toNat * 2 ^ (f.p - 1)
      (f.signed s mag, exc)

/-- A signed integer times 2^e into a format; an exact zero takes the sign given. -/
def roundInt (f : Fmt) (env : FpEnv) (v : Int) (e : Int) (zeroSign : Bool) : Nat × Exc :=
  if v = 0 then (f.signed zeroSign 0, 0) else roundTo f env (v < 0) v.natAbs e false

/-- The sign of an exact zero sum (R204): that of both terms, else − under RDN alone. -/
def zeroSumSign (rm : Rm) (s t : Bool) : Bool := if s = t then s else rm == .rdn

/-- The exact sum of two finite data: an integer and its exponent. -/
def exactSum (s : Bool) (m : Nat) (e : Int) (t : Bool) (n : Nat) (g : Int) : Int × Int :=
  let lo := min e g
  let a : Int := (m * 2 ^ (e - lo).toNat : Nat)
  let b : Int := (n * 2 ^ (g - lo).toNat : Nat)
  ((if s then -a else a) + (if t then -b else b), lo)

/-- NV when any input is a signalling NaN (R195). -/
def nanExc (l : List Fp) : Exc := if l.any fun x => x == .nan true then excNV else 0

/-- a + b (R191, R195, R204). -/
def fpAdd (f : Fmt) (env : FpEnv) (a b : Fp) : Nat × Exc :=
  match a, b with
  | .nan _, _ => (f.nan, nanExc [a, b])
  | _, .nan _ => (f.nan, nanExc [a, b])
  | .inf s, .inf t => if s = t then (f.infinity s, 0) else (f.nan, excNV)
  | .inf s, _ => (f.infinity s, 0)
  | _, .inf t => (f.infinity t, 0)
  | .fin s m e, .fin t n g =>
    let v := exactSum s m e t n g
    roundInt f env v.1 v.2 (zeroSumSign env.rm s t)

/-- −b, a NaN staying what it is. -/
def fpNeg : Fp → Fp
  | .nan q => .nan q
  | .inf s => .inf (!s)
  | .fin s m e => .fin (!s) m e

/-- a × b (R191, R195, R205). -/
def fpMul (f : Fmt) (env : FpEnv) (a b : Fp) : Nat × Exc :=
  match a, b with
  | .nan _, _ => (f.nan, nanExc [a, b])
  | _, .nan _ => (f.nan, nanExc [a, b])
  | .inf s, .inf t => (f.infinity (s ^^ t), 0)
  | .inf s, .fin t n _ => if n = 0 then (f.nan, excNV) else (f.infinity (s ^^ t), 0)
  | .fin s m _, .inf t => if m = 0 then (f.nan, excNV) else (f.infinity (s ^^ t), 0)
  | .fin s m e, .fin t n g =>
    if m * n = 0 then (f.signed (s ^^ t) 0, 0) else roundTo f env (s ^^ t) (m * n) (e + g) false

/-- a × b + c, rounded once (R179, R195, R207). -/
def fpFma (f : Fmt) (env : FpEnv) (a b c : Fp) : Nat × Exc :=
  match a, b, c with
  | .nan _, _, _ => (f.nan, nanExc [a, b, c])
  | _, .nan _, _ => (f.nan, nanExc [a, b, c])
  | _, _, .nan _ => (f.nan, nanExc [a, b, c])
  | .fin s m e, .fin t n g, .fin v k h =>
    let x := exactSum (s ^^ t) (m * n) (e + g) v k h
    roundInt f env x.1 x.2 (zeroSumSign env.rm (s ^^ t) v)
  | .fin _ _ _, .fin _ _ _, .inf v => (f.infinity v, 0)
  | x, y, z =>
    -- one factor is an infinity
    let sg := fun (d : Fp) => match d with
      | .inf s => s
      | .fin s _ _ => s
      | .nan _ => false
    let zero := fun (d : Fp) => match d with
      | .fin _ m _ => m = 0
      | _ => false
    if zero x || zero y then (f.nan, excNV)
    else
      let ps := sg x ^^ sg y
      match z with
      | .inf v => if v = ps then (f.infinity ps, 0) else (f.nan, excNV)
      | _ => (f.infinity ps, 0)

/-- a ÷ b (R191, R195, R206). -/
def fpDiv (f : Fmt) (env : FpEnv) (a b : Fp) : Nat × Exc :=
  match a, b with
  | .nan _, _ => (f.nan, nanExc [a, b])
  | _, .nan _ => (f.nan, nanExc [a, b])
  | .inf _, .inf _ => (f.nan, excNV)
  | .inf s, .fin t _ _ => (f.infinity (s ^^ t), 0)
  | .fin s _ _, .inf t => (f.signed (s ^^ t) 0, 0)
  | .fin s m e, .fin t n g =>
    if n = 0 then
      if m = 0 then (f.nan, excNV) else (f.infinity (s ^^ t), excDZ)
    else if m = 0 then (f.signed (s ^^ t) 0, 0)
    else
      let k := f.p + 3 + bitLen n
      let q := m * 2 ^ k / n
      roundTo f env (s ^^ t) q (e - g - k) (m * 2 ^ k % n ≠ 0)

/-- The integer square root, one bit at a time from 2^k down. -/
def isqrt (n : Nat) : Nat → Nat → Nat
  | 0, r => r
  | k + 1, r => isqrt n k (if (r + 2 ^ k) * (r + 2 ^ k) ≤ n then r + 2 ^ k else r)

/-- √a (R191, R195, R208). -/
def fpSqrt (f : Fmt) (env : FpEnv) (a : Fp) : Nat × Exc :=
  match a with
  | .nan _ => (f.nan, nanExc [a])
  | .inf s => if s then (f.nan, excNV) else (f.infinity false, 0)
  | .fin s m e =>
    if m = 0 then (f.signed s 0, 0)
    else if s then (f.nan, excNV)
    else
      let odd := (e % 2).toNat
      let k := f.p + 3
      let n := m * 2 ^ (odd + 2 * k)
      let r := isqrt n (bitLen n / 2 + 1) 0
      roundTo f env false r ((e - odd) / 2 - k) (r * r ≠ n)

/-- a × 2^b (R191). -/
def fpScale (f : Fmt) (env : FpEnv) (a : Fp) (b : Int) : Nat × Exc :=
  match a with
  | .nan _ => (f.nan, nanExc [a])
  | .inf s => (f.infinity s, 0)
  | .fin s m e => if m = 0 then (f.signed s 0, 0) else roundTo f env s m (e + b) false

/-- A datum into a format, its value unchanged but for rounding. -/
def fpConvert (f : Fmt) (env : FpEnv) (a : Fp) : Nat × Exc := fpScale f env a 0

/-- Whether a is below b, −0 equal to +0; neither is a NaN. -/
def fpLt (a b : Fp) : Bool :=
  match a, b with
  | .inf s, .inf t => s && !t
  | .inf s, _ => s
  | _, .inf t => !t
  | .fin s m e, .fin t n g =>
    let v := (exactSum s m e (!t) n g).1
    v < 0
  | _, _ => false

/-- Whether a equals b as numbers. -/
def fpEq (a b : Fp) : Bool :=
  match a, b with
  | .nan _, _ => false
  | _, .nan _ => false
  | _, _ => !(fpLt a b) && !(fpLt b a)

/-- The sign of a datum that is no NaN. -/
def fpSign : Fp → Bool
  | .nan _ => false
  | .inf s => s
  | .fin s _ _ => s

/-- Whether a datum is a NaN. -/
def fpIsNan : Fp → Bool
  | .nan _ => true
  | _ => false

/-- minimumNumber and maximumNumber: a NaN is ignored unless both are, −0 is below +0 (R196). -/
def fpMinMax (f : Fmt) (env : FpEnv) (isMax : Bool) (a b : Fp) : Nat × Exc :=
  let pick := fun (x : Fp) => let r := fpConvert f env x; (r.1, r.2 ||| nanExc [a, b])
  if fpIsNan a then (if fpIsNan b then (f.nan, nanExc [a, b]) else pick b)
  else if fpIsNan b then pick a
  else
    let less := fpLt a b || (fpEq a b && fpSign a && !(fpSign b))
    if less = isMax then pick b else pick a

/-- The conditions of COMPARE (R179, R196). -/
inductive CmpFn
  | eq | lt | le | un
  deriving DecidableEq, Repr

/-- COMPARE of two data (R196). -/
def fpCompare (c : CmpFn) (a b : Fp) : Bool × Exc :=
  let un := fpIsNan a || fpIsNan b
  match c with
  | .eq => (fpEq a b, nanExc [a, b])
  | .un => (un, nanExc [a, b])
  | .lt => if un then (false, excNV) else (fpLt a b, 0)
  | .le => if un then (false, excNV) else (fpLt a b || fpEq a b, 0)

/-! ### Integers -/

/-- An integer type: its width and whether it is signed. -/
structure IntTy where
  width : Nat
  sgn : Bool
  deriving DecidableEq, Repr

/-- The value of a pattern. -/
def IntTy.val (t : IntTy) (x : Nat) : Int := if t.sgn then signedOf t.width x else (x % 2 ^ t.width : Nat)

/-- The least value. -/
def IntTy.min (t : IntTy) : Int := if t.sgn then -(2 ^ (t.width - 1) : Nat) else 0

/-- The greatest value. -/
def IntTy.max (t : IntTy) : Int := if t.sgn then (2 ^ (t.width - 1) : Nat) - 1 else (2 ^ t.width : Nat) - 1

/-- Whether an exact result fits. -/
def IntTy.fits (t : IntTy) (v : Int) : Bool := t.min ≤ v && v ≤ t.max

/-- An exact result wrapped to the type, IOV when it does not fit (R186). -/
def IntTy.wrap (t : IntTy) (v : Int) : Nat × Exc := (wrapTo t.width v, if t.fits v then 0 else excIOV)

/-- An exact value saturated to the type: the pattern, and whether it was in range. -/
def IntTy.saturate (t : IntTy) (v : Int) : Nat × Bool :=
  (wrapTo t.width (if v < t.min then t.min else if t.max < v then t.max else v), t.fits v)

/-- ABS (R186). -/
def IntTy.absOp (t : IntTy) (x : Nat) : Nat × Exc := if t.sgn then t.wrap (t.val x).natAbs else (x % 2 ^ t.width, 0)

/-- Integer DIV: quotient, remainder and the exception (R188). -/
def IntTy.divOp (t : IntTy) (x y : Nat) : Nat × Nat × Exc :=
  let a := t.val x
  let b := t.val y
  if b = 0 then (0, wrapTo t.width a, excIDZ)
  else if !(t.fits (a.tdiv b)) then (wrapTo t.width a, 0, excIOV)
  else (wrapTo t.width (a.tdiv b), wrapTo t.width (a.tmod b), 0)

/-- COMPARE of integers; UN is always 0 (R186). -/
def IntTy.cmpOp (t : IntTy) (c : CmpFn) (x y : Nat) : Bool :=
  match c with
  | .eq => t.val x == t.val y
  | .lt => t.val x < t.val y
  | .le => t.val x ≤ t.val y
  | .un => false

/-- A finite datum rounded to an integer under RM: the integer, and whether it is inexact. -/
def fpToInt (rm : Rm) (s : Bool) (m : Nat) (e : Int) : Int × Bool :=
  let r := roundAt rm s m e false 0
  (if s then -(r.1 : Int) else r.1, r.2)

/-- CONVERT from FP to an integer type (R197). -/
def fpToIntOp (t : IntTy) (rm : Rm) (a : Fp) : Nat × Exc :=
  match a with
  | .nan _ => (0, excNV)
  | .inf s => ((t.saturate (if s then t.min - 1 else t.max + 1)).1, excNV)
  | .fin s m e =>
    let v := fpToInt rm s m e
    let r := t.saturate v.1
    (r.1, if !r.2 then excNV else if v.2 then excNX else 0)

end Sys2Proof.Machine
end

