-- ==== Sys2Proof/Config.lean ====
section
/-! DEFINITION. What the spec leaves to the implementation, and the free values: constants without a body, so
that no proof can rest on what they are (notes/assumptions/4.md). -/

namespace Sys2Proof

/-- The free value of the n-th draw, of any width (log entry 4). -/
opaque Config.free : (w : Nat) → Nat → BitVec w

/-- The contents of a plane, an I-space word, a D-space word, a bank byte that OFF lost: by the draw that
lost it and its address (R81, R233; log entry 4). -/
opaque Config.lostPlane : Nat → Nat → Plane
opaque Config.lostIWord : Nat → Nat → BitVec 14
opaque Config.lostDWord : Nat → Nat → Half
opaque Config.lostByte : Nat → Nat → Byte

/-- SHA-384 of a byte string (R279, R296). -/
opaque Config.sha384 : List Byte → List Byte

/-- ECDSA P-384 verification of a digest under a public key (R296, R474). -/
opaque Config.ecdsaOk : (key digest signature : List Byte) → Bool

/-- Whether a byte string is a P-384 public key on the curve (R296). -/
opaque Config.onCurve : List Byte → Bool

/-- AES-256-GCM opening of a section: key, nonce, additional data, cipher text and tag to the plain text, or none where the
tag fails (R288, R296). -/
opaque Config.gcmOpen : (key nonce aad cipher tag : List Byte) → Option (List Byte)

/-- The ECDH secret of a P-384 public key and the module's provisioning key, whose private half never leaves the fuses (R464). -/
opaque Config.ecdh : (peer : List Byte) → List Byte

/-- The 160 bytes CFGKEY holds in the flash store: the configuration key wrapped under the device key of a tamper count (R464). -/
opaque Config.sealedKey : List Byte → Nat → List Byte

/-- The firmware image in the active slot when the module leaves the factory (R469); log entry 5. -/
opaque Config.factoryFw : List Byte

/-- The provisioning public key, 97 bytes, from the fuses (R464, R487). -/
opaque Config.provPub : List Byte

/-- MACBASE as set at manufacture, 6 bytes (R487). -/
opaque Config.macBase : List Byte

/-- The source of a long link, as FOLD_ROUTING's drivers give it: the segment records in force as segment, driver and owner,
the logical fold, and whether the link is the long-north one; the spec gives no encoding of it (R70, R298). -/
opaque Config.longSource : List (Nat × Nat × Nat) → Nat → Bool → Option Nat

/-- The level of an encoder unit's direction source after a forward count (R330). -/
opaque Config.forwardLevel : Bool

/-- What a path of cells without a flip-flop that closes on itself carries (R328): by cell and frame cycle. -/
opaque Config.cellLoop : Nat → Nat → Bool

/-- The module's serial number, 8 bytes (R396, R487). -/
opaque Config.serial : List Byte

/-- The firmware vendor key that firmware images are verified under (R413, R474). -/
opaque Config.vendorKey : List Byte

/-- How many of the two spare columns of a sub-array its fuses use, by bank and sub-array; banks 272 to 275 are those of the secure pasture
(R231, R237, R412). -/
opaque Config.fused : Nat → Nat → Fin 3

/-- What a GP pin with neither a driver nor a pull nor an outside source reads, by pin and time (R334). -/
opaque Config.floatLevel : Nat → Nat → Bool

end Sys2Proof
end

