-- ==== Sys2Proof/Machine/Regs.lean ====
section
/-! DEFINITION. The BAR0 register map: every register the spec gives, its address, fields, access classes and
reset values (00 R6 to R10, 12 R388, and the register tables of every chapter). -/

namespace Sys2Proof.Machine

/-- An access class of R7. -/
inductive RClass
  | ro | rw | w1c | ws | wl | wx
  deriving DecidableEq, Repr

/-- One field of a register table: bits `hi:lo`, class, reset value. -/
structure Field where
  hi : Nat
  lo : Nat
  cls : RClass
  rst : Nat
  deriving DecidableEq, Repr

/-- One register table: address of element (0, 0), stride and count of each index, fields. -/
structure RegRow where
  base : Nat
  istride : Nat
  icount : Nat
  jstride : Nat
  jcount : Nat
  fields : List Field
  deriving DecidableEq, Repr

/-- The registers of BAR0, one name for each register of the chapters' tables. -/
inductive RegName
  | tickcfg   -- FRAME.TICKCFG (R52)
  | period   -- FRAME.PERIOD (R52)
  | tickwait   -- FRAME.TICKWAIT (R52)
  | synccfg   -- FRAME.SYNCCFG (R52)
  | ltintv   -- FRAME.LTINTV (R52)
  | ltnextLo   -- FRAME.LTNEXT_LO (R52)
  | ltnextHi   -- FRAME.LTNEXT_HI (R52)
  | hosttick   -- FRAME.HOSTTICK (R52)
  | epochLo   -- FRAME.EPOCH_LO (R52)
  | epochHi   -- FRAME.EPOCH_HI (R52)
  | cycle   -- FRAME.CYCLE (R52)
  | frameState   -- FRAME.STATE (R52)
  | tickstat   -- FRAME.TICKSTAT (R52)
  | stalecnt   -- FRAME.STALECNT (R52)
  | latemap   -- FRAME.LATEMAP[i], i = 0 to 7 (R52)
  | foldId   -- FOLD[PF].ID (R87)
  | foldPen   -- FOLD[PF].PEN (R87)
  | foldRoute   -- FOLD[PF].ROUTE (R87)
  | seqcfg   -- FOLD[PF].SEQCFG (R87)
  | faultcfg   -- FOLD[PF].FAULTCFG (R87)
  | foldStatus   -- FOLD[PF].STATUS (R87)
  | seqstat   -- FOLD[PF].SEQSTAT (R87)
  | faultstat   -- FOLD[PF].FAULTSTAT (R87)
  | paraddr   -- FOLD[PF].PARADDR (R87)
  | parcnt   -- FOLD[PF].PARCNT (R87)
  | illstat   -- FOLD[PF].ILLSTAT (R131)
  | redstat   -- FOLD[PF].REDSTAT (R170)
  | racfg   -- FOLD[PF].RACFG (R170)
  | racnt   -- FOLD[PF].RACNT (R170)
  | raabs   -- FOLD[PF].RAABS (R170)
  | engId   -- ENG[e].ID (R213)
  | engCtrl   -- ENG[e].CTRL (R213)
  | engStatus   -- ENG[e].STATUS (R213)
  | engFlags   -- ENG[e].FLAGS (R213)
  | traprec0   -- ENG[e].TRAPREC0 (R213)
  | traprec1   -- ENG[e].TRAPREC1 (R213)
  | trapdesc   -- ENG[e].TRAPDESC[i], i = 0 to 7 (R213)
  | errrec0   -- ENG[e].ERRREC0 (R213)
  | errrec1   -- ENG[e].ERRREC1 (R213)
  | donecnt   -- ENG[e].DONECNT (R213)
  | evcnt   -- ENG[e].EVCNT (R213)
  | cachecnt   -- ENG[e].CACHECNT (R213)
  | engEcccnt   -- ENG[e].ECCCNT (R213)
  | bankStatus   -- BANK[b].STATUS (R240)
  | bankEccrec   -- BANK[b].ECCREC (R240)
  | bankEcccnt   -- BANK[b].ECCCNT (R240)
  | atomcnt   -- BANK[b].ATOMCNT (R240)
  | waitmax   -- BANK[b].WAITMAX (R240)
  | scrub   -- BANK[b].SCRUB (R240)
  | secpast   -- HUB.SECPAST (R240)
  | secrej   -- HUB.SECREJ (R240)
  | nodeId   -- NODE[N].ID (R277)
  | nodeStatus   -- NODE[N].STATUS (R277)
  | nodeCfg   -- NODE[N].CFG (R277)
  | nodeErrcnt0   -- NODE[N].ERRCNT0 (R277)
  | nodeErrcnt1   -- NODE[N].ERRCNT1 (R277)
  | combcnt   -- NODE[N].COMBCNT (R277)
  | slotwait   -- NODE[N].SLOTWAIT (R277)
  | bridgecnt   -- NODE[N].BRIDGECNT (R277)
  | probectl   -- NODE[N].PROBECTL (R277)
  | probematch0   -- NODE[N].PROBEMATCH0 (R277)
  | probemask0   -- NODE[N].PROBEMATCH0 (R277)
  | probematch1   -- NODE[N].PROBEMATCH1 (R277)
  | probemask1   -- NODE[N].PROBEMATCH1 (R277)
  | probecnt   -- NODE[N].PROBECNT (R277)
  | probethr   -- NODE[N].PROBETHR (R277)
  | probestat   -- NODE[N].PROBESTAT (R277)
  | cfgStatus   -- CFG.STATUS (R325)
  | cfgSlot   -- CFG.SLOT[i], i = 0 to 2 (R325)
  | cfgErr   -- CFG.ERR (R325)
  | cfgErrarg   -- CFG.ERRARG (R325)
  | cfgGuard   -- CFG.GUARD (R325)
  | guardcnt   -- CFG.GUARDCNT (R325)
  | wgCtrl   -- WG.CTRL (R325)
  | wgStatus   -- WG.STATUS (R325)
  | wgSeq   -- WG.SEQ (R325)
  | cfgDigest   -- CFG.DIGEST[i], i = 0 to 11 (R325)
  | cellin   -- EDGE.CELLIN[c], c = 0 to 4,095 (R354)
  | cellcfg   -- EDGE.CELLCFG[c] (R354)
  | seg   -- EDGE.SEG[r][s] (R354)
  | pinCfg   -- PIN[p].CFG, p = 0 to 191 (R354)
  | pinOut   -- PIN[p].OUT (R354)
  | pinSafe   -- PIN[p].SAFE (R354)
  | iobank   -- IOBANK[b].STATUS, b = 0 to 15 (R354)
  | pgCfg   -- PGRP[g].CFG, g = 0 to 15 (R354)
  | pgTime   -- PGRP[g].TIME (R354)
  | pgWidth   -- PGRP[g].WIDTH (R354)
  | pgCmd   -- PGRP[g].CMD (R354)
  | pgSafeLo   -- PGRP[g].SAFE_LO (R354)
  | pgSafeHi   -- PGRP[g].SAFE_LO (R354)
  | pgStat   -- PGRP[g].STAT (R354)
  | pgLast   -- PGRP[g].LAST (R354)
  | encCfg   -- ENC[i].CFG, i = 0 to 3 (R354)
  | encCount   -- ENC[i].COUNT (R354)
  | encStat   -- ENC[i].STAT (R354)
  | ticksel   -- TICKSEL (R354)
  | syncphy   -- SYNCPHY (R354)
  | syncstat   -- SYNCSTAT (R354)
  | clkstat   -- CLKSTAT (R354)
  | prbmux   -- PRBMUX[k], k = 0 to 7 (R354)
  | laneCfg   -- LANE[l].CFG (R383)
  | laneStatus   -- LANE[l].STATUS (R383)
  | ingcfg   -- LANE[l].INGCFG (R383)
  | ingsrc   -- LANE[l].INGSRC (R383)
  | inggeom   -- LANE[l].INGGEOM (R383)
  | ingrows   -- LANE[l].INGGEOM (R383)
  | ingplanes   -- LANE[l].INGPLANES (R383)
  | ingstat   -- LANE[l].INGSTAT (R383)
  | rxcnt0   -- LANE[l].RXCNT0 (R383)
  | rxcnt1   -- LANE[l].RXCNT0 (R383)
  | rxcnt2   -- LANE[l].RXCNT0 (R383)
  | timerxLo   -- LANE[l].TIMERX_LO (R383)
  | timerxHi   -- LANE[l].TIMERX_LO (R383)
  | statusrx   -- LANE[l].STATUSRX[i], i = 0 to 15 (R383)
  | statusinfo   -- LANE[l].STATUSINFO (R383)
  | ptptimeLo   -- LANE[l].PTPTIME_LO (R383)
  | ptptimeHi   -- LANE[l].PTPTIME_LO (R383)
  | ptprate   -- LANE[l].PTPRATE (R383)
  | ptpstepLo   -- LANE[l].PTPSTEP_LO (R383)
  | ptpstepHi   -- LANE[l].PTPSTEP_LO (R383)
  | laneIpv4   -- LANE[l].IPV4 (R383)
  | laneMcast   -- LANE[l].IPV4 (R383)
  | macLo   -- LANE[l].MAC_LO (R383)
  | macHi   -- LANE[l].MAC_LO (R383)
  | egCfg   -- LANE[l].EG[k].CFG, k = 0 to 3 (R383)
  | egTime   -- LANE[l].EG[k].TIME (R383)
  | egCmd   -- LANE[l].EG[k].CMD (R383)
  | egAux   -- LANE[l].EG[k].AUX (R383)
  | egStat   -- LANE[l].EG[k].STAT (R383)
  | cmdhdr   -- MBOX.CMDHDR[i], i = 0 to 3 (R399)
  | cpayLo   -- MBOX.CPAY_LO (R399)
  | cpayHi   -- MBOX.CPAY_LO (R399)
  | rpayLo   -- MBOX.CPAY_LO (R399)
  | rpayHi   -- MBOX.CPAY_LO (R399)
  | rpaymax   -- MBOX.RPAYMAX (R399)
  | doorbell   -- MBOX.DOORBELL (R399)
  | mboxStatus   -- MBOX.STATUS (R399)
  | rsphdr   -- MBOX.RSPHDR[i], i = 0 to 3 (R399)
  | evtSrc   -- EVT.SRC[i], i = 0 to 1,279 (R405)
  | evtPend   -- EVT.PEND[j], j = 0 to 39 (R405)
  | ringbaseLo   -- EVT.RINGBASE_LO (R405)
  | ringbaseHi   -- EVT.RINGBASE_LO (R405)
  | ringcfg   -- EVT.RINGCFG (R405)
  | ringhead   -- EVT.RINGHEAD (R405)
  | ringtail   -- EVT.RINGHEAD (R405)
  | evtStat   -- EVT.STAT (R405)
  | holdoff   -- EVT.HOLDOFF (R405)
  | dmaCtrl   -- DMA[c].CTRL, c = 0 to 7 (R408)
  | dmaBaseLo   -- DMA[c].RINGBASE_LO (R408)
  | dmaBaseHi   -- DMA[c].RINGBASE_LO (R408)
  | dmaRingcfg   -- DMA[c].RINGCFG (R408)
  | dmaTail   -- DMA[c].TAIL (R408)
  | dmaHead   -- DMA[c].TAIL (R408)
  | dmaStatus   -- DMA[c].STATUS (R408)
  | rxbaseLo   -- NIC[l] ring registers (R409)
  | rxbaseHi   -- NIC[l] ring registers (R409)
  | rxtail   -- NIC[l] ring registers (R409)
  | rxhead   -- NIC[l] ring registers (R409)
  | txbaseLo   -- NIC[l] ring registers (R409)
  | txbaseHi   -- NIC[l] ring registers (R409)
  | txtail   -- NIC[l] ring registers (R409)
  | txhead   -- NIC[l] ring registers (R409)
  | rxcfg   -- NIC[l].RXCFG (R409)
  | txcfg   -- NIC[l].RXCFG (R409)
  | rxdrop   -- NIC[l].RXDROP (R409)
  | usbStatus   -- USB.STATUS (R409)
  | bootstat   -- HUB.BOOTSTAT (R426)
  | selftest   -- HUB.SELFTEST (R426)
  | rstcause   -- HUB.RSTCAUSE (R426)
  | boottime   -- HUB.BOOTTIME (R426)
  | supStatus   -- SUP.STATUS (R454)
  | supVin   -- SUP.VIN (R454)
  | supCount   -- SUP.COUNT (R454)
  | thermStatus   -- THERM.STATUS (R454)
  | thermPeak   -- THERM.PEAK (R454)
  | thermTemp   -- THERM.TEMP[i], i = 0 to 272 (R454)
  | hubSubst   -- HUB.SUBST (R454)
  | cairnStatus   -- CAIRN.STATUS (R454)
  | cairnNewest   -- CAIRN.NEWEST (R454)
  | cairnOldest   -- CAIRN.NEWEST (R454)
  | cairnAck   -- CAIRN.ACK (R454)
  | cairnWinsel   -- CAIRN.WINSEL (R454)
  | cairnWinstat   -- CAIRN.WINSTAT (R454)
  | cairnWin   -- CAIRN.WIN[i], i = 0 to 15 (R454)
  | presStatus   -- PRES.STATUS (R487)
  | presCount   -- PRES.COUNT (R487)
  | lcStatus   -- LC.STATUS (R487)
  | updStatus   -- UPD.STATUS (R487)
  | updHealth   -- UPD.HEALTH (R487)
  | updGoodfr   -- UPD.GOODFR (R487)
  | setStatus   -- SET.STATUS (R487)
  | setGen   -- SET.GEN (R487)
  | nodeTrace   -- NODE[N].TRACE[i], 16 bytes each (R277)
  | msixAddrLo   -- MSI-X table, message address (R386)
  | msixAddrHi   -- MSI-X table, message upper address (R386)
  | msixData   -- MSI-X table, message data (R386)
  | msixCtrl   -- MSI-X table, vector control (R386)
  | msixPba   -- MSI-X PBA (R386)
  deriving DecidableEq, Repr

/-- The table of one register: addresses as R388 lays BAR0 out, fields as the chapter lists them. -/
def RegName.row : RegName → RegRow
  | .tickcfg => ⟨0x400, 0x0, 1, 0x0, 1, [⟨12, 8, .ws, 0⟩, ⟨5, 4, .ws, 0⟩, ⟨2, 0, .ws, 0⟩]⟩
  | .period => ⟨0x404, 0x0, 1, 0x0, 1, [⟨30, 0, .ws, 0xf4240⟩]⟩
  | .tickwait => ⟨0x408, 0x0, 1, 0x0, 1, [⟨29, 0, .ws, 0xfa0⟩]⟩
  | .synccfg => ⟨0x40c, 0x0, 1, 0x0, 1, [⟨8, 8, .ws, 0⟩, ⟨7, 4, .ws, 0⟩, ⟨3, 0, .ws, 0⟩]⟩
  | .ltintv => ⟨0x410, 0x0, 1, 0x0, 1, [⟨29, 0, .ws, 0⟩]⟩
  | .ltnextLo => ⟨0x414, 0x0, 1, 0x0, 1, [⟨31, 0, .ws, 0⟩]⟩
  | .ltnextHi => ⟨0x418, 0x0, 1, 0x0, 1, [⟨31, 0, .ws, 0⟩]⟩
  | .hosttick => ⟨0x41c, 0x0, 1, 0x0, 1, [⟨0, 0, .wl, 0⟩]⟩
  | .epochLo => ⟨0x420, 0x0, 1, 0x0, 1, [⟨31, 0, .ro, 0⟩]⟩
  | .epochHi => ⟨0x424, 0x0, 1, 0x0, 1, [⟨15, 0, .ro, 0⟩]⟩
  | .cycle => ⟨0x428, 0x0, 1, 0x0, 1, [⟨31, 31, .ro, 0⟩, ⟨30, 0, .ro, 0⟩]⟩
  | .frameState => ⟨0x42c, 0x0, 1, 0x0, 1, [⟨5, 5, .ro, 0⟩, ⟨4, 4, .ro, 0⟩, ⟨3, 0, .ro, 0⟩]⟩
  | .tickstat => ⟨0x430, 0x0, 1, 0x0, 1, [⟨31, 16, .ro, 0⟩, ⟨15, 0, .ro, 0⟩]⟩
  | .stalecnt => ⟨0x434, 0x0, 1, 0x0, 1, [⟨31, 0, .ro, 0⟩]⟩
  | .latemap => ⟨0x440, 0x4, 8, 0x0, 1, [⟨31, 0, .ro, 0⟩]⟩
  | .foldId => ⟨0x300000, 0x1000, 272, 0x0, 1, [⟨25, 24, .ro, 0⟩, ⟨23, 16, .ro, 0⟩, ⟨10, 9, .ro, 1⟩, ⟨8, 0, .ro, 0⟩]⟩
  | .foldPen => ⟨0x300004, 0x1000, 272, 0x0, 1, [⟨31, 31, .ro, 0⟩, ⟨30, 23, .ro, 0⟩, ⟨22, 14, .ro, 0⟩, ⟨13, 5, .ro, 0⟩]⟩
  | .foldRoute => ⟨0x300008, 0x1000, 272, 0x0, 1, [⟨25, 25, .ro, 0⟩, ⟨24, 17, .ro, 0⟩, ⟨16, 16, .ro, 0⟩, ⟨15, 8, .ro, 0⟩, ⟨3, 2, .ro, 0⟩, ⟨1, 0, .ro, 0⟩]⟩
  | .seqcfg => ⟨0x300010, 0x1000, 272, 0x0, 1, [⟨0, 0, .ws, 0⟩]⟩
  | .faultcfg => ⟨0x300014, 0x1000, 272, 0x0, 1, [⟨3, 0, .ws, 2⟩]⟩
  | .foldStatus => ⟨0x300020, 0x1000, 272, 0x0, 1, [⟨31, 30, .ro, 0⟩, ⟨7, 7, .ro, 1⟩, ⟨6, 6, .ro, 0⟩, ⟨5, 5, .ro, 0⟩, ⟨4, 4, .ro, 0⟩, ⟨3, 3, .ro, 0⟩]⟩
  | .seqstat => ⟨0x300024, 0x1000, 272, 0x0, 1, [⟨31, 31, .ro, 0⟩, ⟨30, 30, .ro, 0⟩, ⟨29, 26, .ro, 0⟩, ⟨25, 25, .ro, 0⟩, ⟨24, 14, .ro, 0⟩, ⟨13, 0, .ro, 0⟩]⟩
  | .faultstat => ⟨0x300028, 0x1000, 272, 0x0, 1, [⟨23, 16, .ro, 0⟩, ⟨3, 3, .w1c, 0⟩, ⟨2, 2, .w1c, 0⟩, ⟨1, 1, .w1c, 0⟩, ⟨0, 0, .w1c, 0⟩]⟩
  | .paraddr => ⟨0x30002c, 0x1000, 272, 0x0, 1, [⟨31, 31, .ro, 0⟩, ⟨17, 17, .ro, 0⟩, ⟨16, 6, .ro, 0⟩, ⟨5, 0, .ro, 0⟩]⟩
  | .parcnt => ⟨0x300030, 0x1000, 272, 0x0, 1, [⟨31, 0, .ro, 0⟩]⟩
  | .illstat => ⟨0x300034, 0x1000, 272, 0x0, 1, [⟨31, 31, .w1c, 0⟩, ⟨30, 27, .ro, 0⟩, ⟨26, 24, .ro, 0⟩, ⟨13, 0, .ro, 0⟩]⟩
  | .redstat => ⟨0x300038, 0x1000, 272, 0x0, 1, [⟨31, 31, .ro, 0⟩, ⟨30, 30, .ro, 0⟩, ⟨20, 0, .ro, 0⟩]⟩
  | .racfg => ⟨0x30003c, 0x1000, 272, 0x0, 1, [⟨0, 0, .ws, 0⟩]⟩
  | .racnt => ⟨0x300040, 0x1000, 272, 0x0, 1, [⟨31, 16, .ro, 0⟩, ⟨15, 0, .ro, 0⟩]⟩
  | .raabs => ⟨0x300044, 0x1000, 272, 0x0, 1, [⟨31, 0, .ro, 0⟩]⟩
  | .engId => ⟨0x500000, 0x4000, 32, 0x0, 1, [⟨25, 24, .ro, 0⟩, ⟨4, 0, .ro, 0⟩]⟩
  | .engCtrl => ⟨0x500004, 0x4000, 32, 0x0, 1, [⟨2, 2, .ws, 0⟩, ⟨1, 1, .ws, 0⟩, ⟨0, 0, .ws, 0⟩]⟩
  | .engStatus => ⟨0x500008, 0x4000, 32, 0x0, 1, [⟨31, 30, .ro, 0⟩, ⟨8, 8, .ro, 0⟩, ⟨3, 0, .ro, 0⟩]⟩
  | .engFlags => ⟨0x50000c, 0x4000, 32, 0x0, 1, [⟨6, 6, .w1c, 0⟩, ⟨5, 5, .w1c, 0⟩, ⟨4, 4, .w1c, 0⟩, ⟨3, 3, .w1c, 0⟩, ⟨2, 2, .w1c, 0⟩, ⟨1, 1, .w1c, 0⟩, ⟨0, 0, .w1c, 0⟩]⟩
  | .traprec0 => ⟨0x500010, 0x4000, 32, 0x0, 1, [⟨31, 31, .w1c, 0⟩, ⟨29, 26, .ro, 0⟩, ⟨24, 18, .ro, 0⟩, ⟨17, 17, .ro, 0⟩, ⟨16, 15, .ro, 0⟩, ⟨8, 0, .ro, 0⟩]⟩
  | .traprec1 => ⟨0x500014, 0x4000, 32, 0x0, 1, [⟨23, 0, .ro, 0⟩]⟩
  | .trapdesc => ⟨0x500020, 0x4000, 32, 0x4, 8, [⟨31, 0, .ro, 0⟩]⟩
  | .errrec0 => ⟨0x500040, 0x4000, 32, 0x0, 1, [⟨31, 31, .w1c, 0⟩, ⟨27, 24, .ro, 0⟩, ⟨17, 17, .ro, 0⟩, ⟨16, 15, .ro, 0⟩, ⟨8, 0, .ro, 0⟩]⟩
  | .errrec1 => ⟨0x500044, 0x4000, 32, 0x0, 1, [⟨23, 0, .ro, 0⟩]⟩
  | .donecnt => ⟨0x500048, 0x4000, 32, 0x0, 1, [⟨31, 0, .ro, 0⟩]⟩
  | .evcnt => ⟨0x50004c, 0x4000, 32, 0x0, 1, [⟨31, 16, .ro, 0⟩, ⟨15, 0, .ro, 0⟩]⟩
  | .cachecnt => ⟨0x500050, 0x4000, 32, 0x0, 1, [⟨31, 16, .ro, 0⟩, ⟨15, 0, .ro, 0⟩]⟩
  | .engEcccnt => ⟨0x500054, 0x4000, 32, 0x0, 1, [⟨31, 16, .ro, 0⟩, ⟨15, 0, .ro, 0⟩]⟩
  | .bankStatus => ⟨0x300100, 0x1000, 272, 0x0, 1, [⟨31, 30, .ro, 0⟩, ⟨29, 29, .ro, 0⟩, ⟨28, 28, .ro, 1⟩, ⟨7, 4, .ro, 0⟩, ⟨3, 0, .ro, 0⟩]⟩
  | .bankEccrec => ⟨0x300104, 0x1000, 272, 0x0, 1, [⟨31, 31, .w1c, 0⟩, ⟨16, 16, .ro, 0⟩, ⟨15, 0, .ro, 0⟩]⟩
  | .bankEcccnt => ⟨0x300108, 0x1000, 272, 0x0, 1, [⟨31, 16, .ro, 0⟩, ⟨15, 0, .ro, 0⟩]⟩
  | .atomcnt => ⟨0x30010c, 0x1000, 272, 0x0, 1, [⟨31, 0, .ro, 0⟩]⟩
  | .waitmax => ⟨0x300110, 0x1000, 272, 0x0, 1, [⟨15, 0, .ro, 0⟩]⟩
  | .scrub => ⟨0x300114, 0x1000, 272, 0x0, 1, [⟨31, 16, .ro, 0⟩, ⟨0, 0, .wl, 1⟩]⟩
  | .secpast => ⟨0x40f00, 0x0, 1, 0x0, 1, [⟨31, 30, .ro, 0⟩, ⟨15, 8, .ro, 0⟩, ⟨7, 4, .ro, 3⟩]⟩
  | .secrej => ⟨0x40f04, 0x0, 1, 0x0, 1, [⟨31, 0, .ro, 0⟩]⟩
  | .nodeId => ⟨0x100000, 0x1000, 288, 0x0, 1, [⟨31, 30, .ro, 0⟩, ⟨29, 28, .ro, 0⟩, ⟨27, 23, .ro, 0⟩, ⟨22, 19, .ro, 0⟩, ⟨8, 0, .ro, 0⟩]⟩
  | .nodeStatus => ⟨0x100004, 0x1000, 288, 0x0, 1, [⟨31, 31, .ro, 0⟩, ⟨30, 30, .ro, 0⟩, ⟨29, 26, .ro, 0⟩, ⟨24, 24, .ro, 0⟩, ⟨7, 0, .ro, 0⟩]⟩
  | .nodeCfg => ⟨0x100008, 0x1000, 288, 0x0, 1, [⟨8, 8, .ws, 1⟩, ⟨7, 4, .ws, 0⟩]⟩
  | .nodeErrcnt0 => ⟨0x100010, 0x1000, 288, 0x0, 1, [⟨31, 16, .ro, 0⟩, ⟨15, 0, .ro, 0⟩]⟩
  | .nodeErrcnt1 => ⟨0x100014, 0x1000, 288, 0x0, 1, [⟨31, 16, .ro, 0⟩, ⟨15, 0, .ro, 0⟩]⟩
  | .combcnt => ⟨0x100018, 0x1000, 288, 0x0, 1, [⟨31, 0, .ro, 0⟩]⟩
  | .slotwait => ⟨0x10001c, 0x1000, 288, 0x0, 1, [⟨31, 0, .ro, 0⟩]⟩
  | .bridgecnt => ⟨0x100020, 0x1000, 288, 0x0, 1, [⟨31, 16, .ro, 0⟩]⟩
  | .probectl => ⟨0x100100, 0x1000, 288, 0x0, 1, [⟨31, 30, .wl, 0⟩, ⟨29, 29, .wl, 0⟩, ⟨28, 28, .wl, 0⟩, ⟨27, 27, .wl, 0⟩, ⟨26, 26, .wl, 0⟩, ⟨25, 24, .wl, 0⟩, ⟨23, 21, .wl, 7⟩]⟩
  | .probematch0 => ⟨0x100104, 0x1000, 288, 0x0, 1, [⟨31, 27, .wl, 0⟩, ⟨26, 18, .wl, 0⟩, ⟨17, 9, .wl, 0⟩]⟩
  | .probemask0 => ⟨0x100108, 0x1000, 288, 0x0, 1, [⟨31, 27, .wl, 0⟩, ⟨26, 18, .wl, 0⟩, ⟨17, 9, .wl, 0⟩]⟩
  | .probematch1 => ⟨0x10010c, 0x1000, 288, 0x0, 1, [⟨31, 19, .wl, 0⟩, ⟨18, 17, .wl, 0⟩, ⟨16, 16, .wl, 0⟩, ⟨15, 0, .wl, 0⟩]⟩
  | .probemask1 => ⟨0x100110, 0x1000, 288, 0x0, 1, [⟨31, 19, .wl, 0⟩, ⟨18, 17, .wl, 0⟩, ⟨16, 16, .wl, 0⟩, ⟨15, 0, .wl, 0⟩]⟩
  | .probecnt => ⟨0x100114, 0x1000, 288, 0x0, 1, [⟨31, 0, .ro, 0⟩]⟩
  | .probethr => ⟨0x100118, 0x1000, 288, 0x0, 1, [⟨31, 0, .wl, 0xffffffff⟩]⟩
  | .probestat => ⟨0x10011c, 0x1000, 288, 0x0, 1, [⟨31, 31, .w1c, 0⟩, ⟨14, 8, .ro, 0⟩, ⟨5, 0, .ro, 0⟩]⟩
  | .cfgStatus => ⟨0x600, 0x0, 1, 0x0, 1, [⟨31, 30, .ro, 0⟩, ⟨29, 28, .ro, 0⟩, ⟨27, 25, .ro, 0⟩, ⟨24, 24, .ro, 0⟩, ⟨23, 22, .ro, 0⟩, ⟨21, 21, .ro, 0⟩]⟩
  | .cfgSlot => ⟨0x604, 0x4, 3, 0x0, 1, [⟨31, 30, .ro, 0⟩, ⟨29, 29, .ro, 0⟩, ⟨28, 28, .ro, 0⟩, ⟨23, 0, .ro, 0⟩]⟩
  | .cfgErr => ⟨0x610, 0x0, 1, 0x0, 1, [⟨31, 24, .ro, 0⟩, ⟨23, 16, .ro, 0⟩, ⟨9, 0, .ro, 0⟩]⟩
  | .cfgErrarg => ⟨0x614, 0x0, 1, 0x0, 1, [⟨31, 0, .ro, 0⟩]⟩
  | .cfgGuard => ⟨0x618, 0x0, 1, 0x0, 1, [⟨31, 31, .w1c, 0⟩, ⟨19, 0, .ro, 0⟩]⟩
  | .guardcnt => ⟨0x61c, 0x0, 1, 0x0, 1, [⟨31, 0, .ro, 0⟩]⟩
  | .wgCtrl => ⟨0x620, 0x0, 1, 0x0, 1, [⟨1, 1, .rw, 0⟩, ⟨0, 0, .rw, 0⟩]⟩
  | .wgStatus => ⟨0x624, 0x0, 1, 0x0, 1, [⟨31, 31, .ro, 0⟩, ⟨30, 30, .ro, 0⟩, ⟨29, 28, .ro, 0⟩, ⟨27, 24, .ro, 0⟩, ⟨10, 0, .ro, 0⟩]⟩
  | .wgSeq => ⟨0x628, 0x0, 1, 0x0, 1, [⟨31, 16, .ro, 0⟩, ⟨15, 0, .ro, 0⟩]⟩
  | .cfgDigest => ⟨0x640, 0x4, 12, 0x0, 1, [⟨31, 0, .ro, 0⟩]⟩
  | .cellin => ⟨0x700000, 0x8, 4096, 0x0, 1, [⟨31, 24, .wx, 0⟩, ⟨23, 16, .wx, 0⟩, ⟨15, 8, .wx, 0⟩, ⟨7, 0, .wx, 0⟩]⟩
  | .cellcfg => ⟨0x700004, 0x8, 4096, 0x0, 1, [⟨31, 16, .wx, 0⟩, ⟨4, 4, .wx, 0⟩, ⟨3, 3, .wx, 0⟩]⟩
  | .seg => ⟨0x708000, 0x400, 16, 0x4, 256, [⟨31, 31, .wl, 0⟩, ⟨11, 0, .wl, 0⟩]⟩
  | .pinCfg => ⟨0x70c000, 0x8, 192, 0x0, 1, [⟨7, 6, .wx, 1⟩, ⟨5, 5, .wx, 0⟩, ⟨4, 3, .wx, 0⟩, ⟨2, 0, .wx, 0⟩]⟩
  | .pinOut => ⟨0x70c004, 0x8, 192, 0x0, 1, [⟨23, 16, .ws, 0⟩, ⟨15, 14, .ws, 2⟩, ⟨11, 8, .ws, 0⟩, ⟨7, 0, .ws, 0⟩]⟩
  | .pinSafe => ⟨0x70c600, 0x4, 192, 0x0, 1, [⟨4, 4, .ro, 0⟩, ⟨3, 3, .ro, 0⟩, ⟨2, 0, .ro, 0⟩]⟩
  | .iobank => ⟨0x70c900, 0x4, 16, 0x0, 1, [⟨31, 31, .ro, 0⟩, ⟨30, 30, .ro, 0⟩, ⟨23, 12, .ro, 0xfff⟩, ⟨11, 0, .ro, 0⟩]⟩
  | .pgCfg => ⟨0x70d000, 0x20, 16, 0x0, 1, [⟨31, 31, .ws, 0⟩, ⟨30, 29, .ws, 1⟩, ⟨28, 21, .ws, 8⟩, ⟨20, 13, .ws, 0⟩, ⟨12, 12, .ws, 0⟩, ⟨7, 0, .ws, 0⟩]⟩
  | .pgTime => ⟨0x70d004, 0x20, 16, 0x0, 1, [⟨29, 0, .ws, 0⟩]⟩
  | .pgWidth => ⟨0x70d008, 0x20, 16, 0x0, 1, [⟨15, 0, .ws, 1⟩]⟩
  | .pgCmd => ⟨0x70d00c, 0x20, 16, 0x0, 1, [⟨31, 24, .ws, 0⟩, ⟨15, 0, .ws, 0⟩]⟩
  | .pgSafeLo => ⟨0x70d010, 0x20, 16, 0x0, 1, [⟨31, 0, .ws, 0⟩]⟩
  | .pgSafeHi => ⟨0x70d014, 0x20, 16, 0x0, 1, [⟨31, 0, .ws, 0⟩]⟩
  | .pgStat => ⟨0x70d018, 0x20, 16, 0x0, 1, [⟨31, 31, .ro, 0⟩, ⟨30, 23, .ro, 0⟩, ⟨22, 22, .ro, 0⟩, ⟨8, 0, .ro, 0⟩]⟩
  | .pgLast => ⟨0x70d01c, 0x20, 16, 0x0, 1, [⟨31, 0, .ro, 0⟩]⟩
  | .encCfg => ⟨0x70e000, 0x20, 4, 0x0, 1, [⟨31, 31, .ws, 0⟩, ⟨30, 29, .ws, 0⟩, ⟨28, 28, .ws, 0⟩, ⟨27, 23, .ws, 0⟩, ⟨22, 18, .ws, 0⟩, ⟨15, 0, .ws, 1⟩]⟩
  | .encCount => ⟨0x70e004, 0x20, 4, 0x0, 1, [⟨31, 0, .ro, 0⟩]⟩
  | .encStat => ⟨0x70e008, 0x20, 4, 0x0, 1, [⟨31, 31, .w1c, 0⟩, ⟨15, 0, .ro, 0⟩]⟩
  | .ticksel => ⟨0x70e100, 0x0, 1, 0x0, 1, [⟨8, 4, .ws, 0⟩, ⟨3, 2, .ws, 0⟩, ⟨1, 0, .ws, 0⟩]⟩
  | .syncphy => ⟨0x70e104, 0x0, 1, 0x0, 1, [⟨4, 0, .ws, 0⟩]⟩
  | .syncstat => ⟨0x70e108, 0x0, 1, 0x0, 1, [⟨31, 31, .ro, 0⟩, ⟨15, 0, .ro, 0⟩]⟩
  | .clkstat => ⟨0x70e10c, 0x0, 1, 0x0, 1, [⟨6, 3, .ro, 0⟩, ⟨2, 2, .ro, 0⟩, ⟨1, 0, .ro, 0⟩]⟩
  | .prbmux => ⟨0x70f000, 0x10, 8, 0x0, 1, [⟨31, 29, .wl, 0⟩, ⟨28, 28, .wl, 0⟩, ⟨27, 24, .wl, 0⟩, ⟨19, 0, .wl, 0⟩]⟩
  | .laneCfg => ⟨0x600000, 0x2000, 32, 0x0, 1, [⟨31, 31, .ws, 0⟩, ⟨30, 30, .ws, 0⟩, ⟨29, 29, .ws, 0⟩, ⟨28, 28, .ws, 0⟩, ⟨27, 27, .ws, 0⟩, ⟨26, 26, .ws, 0⟩]⟩
  | .laneStatus => ⟨0x600004, 0x2000, 32, 0x0, 1, [⟨31, 31, .ro, 0⟩, ⟨30, 30, .ro, 0⟩, ⟨29, 29, .ro, 0⟩, ⟨28, 28, .ro, 0⟩]⟩
  | .ingcfg => ⟨0x600100, 0x2000, 32, 0x0, 1, [⟨31, 31, .ws, 0⟩, ⟨30, 30, .ws, 0⟩, ⟨29, 29, .ws, 0⟩, ⟨28, 28, .ws, 0⟩, ⟨27, 27, .ws, 0⟩, ⟨26, 19, .ws, 1⟩, ⟨18, 14, .ws, 8⟩, ⟨13, 9, .ws, 8⟩]⟩
  | .ingsrc => ⟨0x600104, 0x2000, 32, 0x0, 1, [⟨31, 24, .ws, 0⟩, ⟨15, 0, .ws, 0⟩]⟩
  | .inggeom => ⟨0x600108, 0x2000, 32, 0x0, 1, [⟨31, 16, .ws, 0⟩, ⟨15, 0, .ws, 1⟩]⟩
  | .ingrows => ⟨0x60010c, 0x2000, 32, 0x0, 1, [⟨31, 16, .ws, 0⟩, ⟨15, 0, .ws, 1⟩]⟩
  | .ingplanes => ⟨0x600110, 0x2000, 32, 0x0, 1, [⟨31, 22, .ws, 0⟩, ⟨21, 11, .ws, 0⟩, ⟨10, 0, .ws, 0⟩]⟩
  | .ingstat => ⟨0x600120, 0x2000, 32, 0x0, 1, [⟨31, 16, .ro, 0⟩, ⟨15, 0, .ro, 0⟩]⟩
  | .rxcnt0 => ⟨0x600124, 0x2000, 32, 0x0, 1, [⟨31, 16, .ro, 0⟩, ⟨15, 0, .ro, 0⟩]⟩
  | .rxcnt1 => ⟨0x600128, 0x2000, 32, 0x0, 1, [⟨31, 16, .ro, 0⟩, ⟨15, 0, .ro, 0⟩]⟩
  | .rxcnt2 => ⟨0x60012c, 0x2000, 32, 0x0, 1, [⟨31, 16, .ro, 0⟩, ⟨15, 0, .ro, 0⟩]⟩
  | .timerxLo => ⟨0x600140, 0x2000, 32, 0x0, 1, [⟨31, 0, .ro, 0⟩]⟩
  | .timerxHi => ⟨0x600144, 0x2000, 32, 0x0, 1, [⟨31, 0, .ro, 0⟩]⟩
  | .statusrx => ⟨0x600180, 0x2000, 32, 0x4, 16, [⟨31, 0, .ro, 0⟩]⟩
  | .statusinfo => ⟨0x6001c0, 0x2000, 32, 0x0, 1, [⟨31, 16, .ro, 0⟩, ⟨6, 0, .ro, 0⟩]⟩
  | .ptptimeLo => ⟨0x600200, 0x2000, 32, 0x0, 1, [⟨31, 0, .ro, 0⟩]⟩
  | .ptptimeHi => ⟨0x600204, 0x2000, 32, 0x0, 1, [⟨31, 0, .ro, 0⟩]⟩
  | .ptprate => ⟨0x600208, 0x2000, 32, 0x0, 1, [⟨31, 0, .wl, 0⟩]⟩
  | .ptpstepLo => ⟨0x60020c, 0x2000, 32, 0x0, 1, [⟨31, 0, .wl, 0⟩]⟩
  | .ptpstepHi => ⟨0x600210, 0x2000, 32, 0x0, 1, [⟨31, 0, .wl, 0⟩]⟩
  | .laneIpv4 => ⟨0x600300, 0x2000, 32, 0x0, 1, [⟨31, 0, .ws, 0⟩]⟩
  | .laneMcast => ⟨0x600304, 0x2000, 32, 0x0, 1, [⟨31, 0, .ws, 0⟩]⟩
  | .macLo => ⟨0x600308, 0x2000, 32, 0x0, 1, [⟨31, 0, .ro, 0⟩]⟩
  | .macHi => ⟨0x60030c, 0x2000, 32, 0x0, 1, [⟨31, 0, .ro, 0⟩]⟩
  | .egCfg => ⟨0x600400, 0x2000, 32, 0x20, 4, [⟨31, 31, .ws, 0⟩, ⟨30, 29, .ws, 1⟩, ⟨28, 21, .ws, 8⟩, ⟨20, 13, .ws, 0⟩, ⟨7, 0, .ws, 0⟩]⟩
  | .egTime => ⟨0x600404, 0x2000, 32, 0x20, 4, [⟨29, 0, .ws, 0⟩]⟩
  | .egCmd => ⟨0x600408, 0x2000, 32, 0x20, 4, [⟨31, 24, .ws, 0⟩, ⟨20, 16, .ws, 0⟩, ⟨15, 0, .ws, 0⟩]⟩
  | .egAux => ⟨0x60040c, 0x2000, 32, 0x20, 4, [⟨31, 16, .ws, 0⟩, ⟨15, 0, .ws, 0⟩]⟩
  | .egStat => ⟨0x600410, 0x2000, 32, 0x20, 4, [⟨31, 31, .ro, 0⟩, ⟨30, 23, .ro, 0⟩, ⟨22, 22, .ro, 0⟩, ⟨8, 0, .ro, 0⟩]⟩
  | .cmdhdr => ⟨0x20000, 0x4, 4, 0x0, 1, [⟨31, 0, .rw, 0⟩]⟩
  | .cpayLo => ⟨0x20010, 0x0, 1, 0x0, 1, [⟨31, 0, .rw, 0⟩]⟩
  | .cpayHi => ⟨0x20014, 0x0, 1, 0x0, 1, [⟨31, 0, .rw, 0⟩]⟩
  | .rpayLo => ⟨0x20018, 0x0, 1, 0x0, 1, [⟨31, 0, .rw, 0⟩]⟩
  | .rpayHi => ⟨0x2001c, 0x0, 1, 0x0, 1, [⟨31, 0, .rw, 0⟩]⟩
  | .rpaymax => ⟨0x20020, 0x0, 1, 0x0, 1, [⟨16, 0, .rw, 0⟩]⟩
  | .doorbell => ⟨0x20024, 0x0, 1, 0x0, 1, [⟨0, 0, .rw, 0⟩]⟩
  | .mboxStatus => ⟨0x20028, 0x0, 1, 0x0, 1, [⟨31, 31, .ro, 0⟩, ⟨30, 30, .ro, 0⟩, ⟨15, 0, .ro, 0⟩]⟩
  | .rsphdr => ⟨0x20040, 0x4, 4, 0x0, 1, [⟨31, 0, .ro, 0⟩]⟩
  | .evtSrc => ⟨0x10000, 0x4, 1280, 0x0, 1, [⟨31, 31, .rw, 0⟩, ⟨30, 30, .rw, 0⟩, ⟨5, 0, .rw, 0⟩]⟩
  | .evtPend => ⟨0x12000, 0x4, 40, 0x0, 1, [⟨31, 0, .w1c, 0⟩]⟩
  | .ringbaseLo => ⟨0x13000, 0x0, 1, 0x0, 1, [⟨31, 0, .rw, 0⟩]⟩
  | .ringbaseHi => ⟨0x13004, 0x0, 1, 0x0, 1, [⟨31, 0, .rw, 0⟩]⟩
  | .ringcfg => ⟨0x13008, 0x0, 1, 0x0, 1, [⟨31, 31, .rw, 0⟩, ⟨3, 0, .rw, 0⟩]⟩
  | .ringhead => ⟨0x1300c, 0x0, 1, 0x0, 1, [⟨11, 0, .ro, 0⟩]⟩
  | .ringtail => ⟨0x13010, 0x0, 1, 0x0, 1, [⟨11, 0, .rw, 0⟩]⟩
  | .evtStat => ⟨0x13014, 0x0, 1, 0x0, 1, [⟨31, 16, .ro, 0⟩]⟩
  | .holdoff => ⟨0x13018, 0x0, 1, 0x0, 1, [⟨9, 0, .rw, 0⟩]⟩
  | .dmaCtrl => ⟨0x800000, 0x100, 8, 0x0, 1, [⟨31, 31, .rw, 0⟩, ⟨30, 30, .rw, 0⟩, ⟨5, 0, .rw, 0⟩]⟩
  | .dmaBaseLo => ⟨0x800004, 0x100, 8, 0x0, 1, [⟨31, 0, .rw, 0⟩]⟩
  | .dmaBaseHi => ⟨0x800008, 0x100, 8, 0x0, 1, [⟨31, 0, .rw, 0⟩]⟩
  | .dmaRingcfg => ⟨0x80000c, 0x100, 8, 0x0, 1, [⟨3, 0, .rw, 0⟩]⟩
  | .dmaTail => ⟨0x800010, 0x100, 8, 0x0, 1, [⟨11, 0, .rw, 0⟩]⟩
  | .dmaHead => ⟨0x800014, 0x100, 8, 0x0, 1, [⟨11, 0, .ro, 0⟩]⟩
  | .dmaStatus => ⟨0x800018, 0x100, 8, 0x0, 1, [⟨31, 31, .ro, 0⟩, ⟨30, 30, .ro, 0⟩, ⟨3, 0, .ro, 0⟩]⟩
  | .rxbaseLo => ⟨0x808000, 0x40, 32, 0x0, 1, [⟨31, 0, .rw, 0⟩]⟩
  | .rxbaseHi => ⟨0x808004, 0x40, 32, 0x0, 1, [⟨31, 0, .rw, 0⟩]⟩
  | .rxtail => ⟨0x80800c, 0x40, 32, 0x0, 1, [⟨11, 0, .rw, 0⟩]⟩
  | .rxhead => ⟨0x808010, 0x40, 32, 0x0, 1, [⟨11, 0, .ro, 0⟩]⟩
  | .txbaseLo => ⟨0x808014, 0x40, 32, 0x0, 1, [⟨31, 0, .rw, 0⟩]⟩
  | .txbaseHi => ⟨0x808018, 0x40, 32, 0x0, 1, [⟨31, 0, .rw, 0⟩]⟩
  | .txtail => ⟨0x808020, 0x40, 32, 0x0, 1, [⟨11, 0, .rw, 0⟩]⟩
  | .txhead => ⟨0x808024, 0x40, 32, 0x0, 1, [⟨11, 0, .ro, 0⟩]⟩
  | .rxcfg => ⟨0x808008, 0x40, 32, 0x0, 1, [⟨31, 31, .rw, 0⟩, ⟨11, 8, .rw, 0⟩, ⟨5, 0, .rw, 0⟩]⟩
  | .txcfg => ⟨0x80801c, 0x40, 32, 0x0, 1, [⟨31, 31, .rw, 0⟩, ⟨11, 8, .rw, 0⟩, ⟨5, 0, .rw, 0⟩]⟩
  | .rxdrop => ⟨0x808028, 0x40, 32, 0x0, 1, [⟨31, 0, .ro, 0⟩]⟩
  | .usbStatus => ⟨0x780000, 0x0, 1, 0x0, 1, [⟨31, 31, .ro, 0⟩, ⟨30, 30, .ro, 0⟩, ⟨29, 28, .ro, 0⟩, ⟨27, 26, .ro, 0⟩, ⟨25, 25, .ro, 0⟩, ⟨24, 24, .ro, 0⟩, ⟨15, 0, .ro, 0⟩]⟩
  | .bootstat => ⟨0x100, 0x0, 1, 0x0, 1, [⟨31, 29, .ro, 0⟩, ⟨28, 26, .ro, 3⟩, ⟨25, 25, .ro, 0⟩, ⟨24, 24, .ro, 0⟩, ⟨23, 22, .ro, 0⟩]⟩
  | .selftest => ⟨0x104, 0x0, 1, 0x0, 1, [⟨31, 23, .ro, 0⟩, ⟨22, 14, .ro, 0⟩, ⟨13, 8, .ro, 0⟩, ⟨7, 4, .ro, 0⟩]⟩
  | .rstcause => ⟨0x108, 0x0, 1, 0x0, 1, [⟨31, 28, .ro, 1⟩, ⟨15, 0, .ro, 0⟩]⟩
  | .boottime => ⟨0x10c, 0x0, 1, 0x0, 1, [⟨31, 16, .ro, 0⟩, ⟨15, 0, .ro, 0⟩]⟩
  | .supStatus => ⟨0x30000, 0x0, 1, 0x0, 1, [⟨31, 30, .ro, 1⟩, ⟨29, 29, .ro, 0⟩, ⟨28, 28, .ro, 0⟩, ⟨27, 27, .ro, 0⟩]⟩
  | .supVin => ⟨0x30004, 0x0, 1, 0x0, 1, [⟨31, 16, .ro, 0⟩, ⟨15, 0, .ro, 0⟩]⟩
  | .supCount => ⟨0x30008, 0x0, 1, 0x0, 1, [⟨31, 16, .ro, 0⟩, ⟨15, 0, .ro, 0⟩]⟩
  | .thermStatus => ⟨0x30100, 0x0, 1, 0x0, 1, [⟨31, 30, .ro, 0⟩, ⟨24, 16, .ro, 0⟩, ⟨15, 0, .ro, 0x8000⟩]⟩
  | .thermPeak => ⟨0x30104, 0x0, 1, 0x0, 1, [⟨24, 16, .ro, 0⟩, ⟨15, 0, .ro, 0x8000⟩]⟩
  | .thermTemp => ⟨0x30200, 0x4, 273, 0x0, 1, [⟨15, 0, .ro, 0x8000⟩]⟩
  | .hubSubst => ⟨0x30700, 0x0, 1, 0x0, 1, [⟨31, 31, .ro, 0⟩, ⟨30, 28, .ro, 0⟩, ⟨24, 16, .ro, 0⟩, ⟨15, 8, .ro, 0⟩, ⟨7, 0, .ro, 0⟩]⟩
  | .cairnStatus => ⟨0x31000, 0x0, 1, 0x0, 1, [⟨31, 31, .ro, 0⟩, ⟨27, 16, .ro, 0⟩]⟩
  | .cairnNewest => ⟨0x31004, 0x0, 1, 0x0, 1, [⟨31, 0, .ro, 0⟩]⟩
  | .cairnOldest => ⟨0x31008, 0x0, 1, 0x0, 1, [⟨31, 0, .ro, 0⟩]⟩
  | .cairnAck => ⟨0x3100c, 0x0, 1, 0x0, 1, [⟨31, 0, .rw, 0⟩]⟩
  | .cairnWinsel => ⟨0x31010, 0x0, 1, 0x0, 1, [⟨31, 0, .rw, 0⟩]⟩
  | .cairnWinstat => ⟨0x31014, 0x0, 1, 0x0, 1, [⟨31, 31, .ro, 0⟩]⟩
  | .cairnWin => ⟨0x31040, 0x4, 16, 0x0, 1, [⟨31, 0, .ro, 0⟩]⟩
  | .presStatus => ⟨0x40000, 0x0, 1, 0x0, 1, [⟨31, 31, .ro, 0⟩, ⟨30, 29, .ro, 0⟩, ⟨28, 28, .ro, 0⟩, ⟨11, 0, .ro, 0⟩]⟩
  | .presCount => ⟨0x40004, 0x0, 1, 0x0, 1, [⟨31, 16, .ro, 0⟩, ⟨15, 0, .ro, 0⟩]⟩
  | .lcStatus => ⟨0x40010, 0x0, 1, 0x0, 1, [⟨31, 30, .ro, 0⟩, ⟨29, 26, .ro, 0⟩, ⟨25, 21, .ro, 0⟩, ⟨20, 20, .ro, 0⟩, ⟨19, 19, .ro, 0⟩, ⟨18, 18, .ro, 0⟩, ⟨6, 0, .ro, 0⟩]⟩
  | .updStatus => ⟨0x700, 0x0, 1, 0x0, 1, [⟨31, 29, .ro, 0⟩, ⟨28, 27, .ro, 0⟩, ⟨11, 0, .ro, 0⟩]⟩
  | .updHealth => ⟨0x704, 0x0, 1, 0x0, 1, [⟨31, 30, .ro, 0⟩, ⟨29, 12, .ro, 0⟩]⟩
  | .updGoodfr => ⟨0x708, 0x0, 1, 0x0, 1, [⟨31, 0, .ro, 0⟩]⟩
  | .setStatus => ⟨0x800, 0x0, 1, 0x0, 1, [⟨31, 31, .ro, 0⟩, ⟨30, 30, .ro, 0⟩, ⟨29, 29, .ro, 0⟩, ⟨15, 0, .ro, 0⟩]⟩
  | .setGen => ⟨0x804, 0x0, 1, 0x0, 1, [⟨31, 0, .ro, 0⟩]⟩
  | .nodeTrace => ⟨0x100400, 0x1000, 288, 0x4, 256, [⟨31, 0, .ro, 0⟩]⟩
  | .msixAddrLo => ⟨0x18000, 0x10, 64, 0x0, 1, [⟨31, 2, .rw, 0⟩]⟩
  | .msixAddrHi => ⟨0x18004, 0x10, 64, 0x0, 1, [⟨31, 0, .rw, 0⟩]⟩
  | .msixData => ⟨0x18008, 0x10, 64, 0x0, 1, [⟨31, 0, .rw, 0⟩]⟩
  | .msixCtrl => ⟨0x1800c, 0x10, 64, 0x0, 1, [⟨0, 0, .rw, 1⟩]⟩
  | .msixPba => ⟨0x19000, 0x4, 2, 0x0, 1, [⟨31, 0, .ro, 0⟩]⟩

/-- Part 0 of the list of every register. -/
def regNames0 : List RegName :=
  [.tickcfg, .period, .tickwait, .synccfg, .ltintv, .ltnextLo, .ltnextHi, .hosttick, .epochLo, .epochHi, .cycle, .frameState, .tickstat, .stalecnt, .latemap, .foldId]

/-- Part 1 of the list of every register. -/
def regNames1 : List RegName :=
  [.foldPen, .foldRoute, .seqcfg, .faultcfg, .foldStatus, .seqstat, .faultstat, .paraddr, .parcnt, .illstat, .redstat, .racfg, .racnt, .raabs, .engId, .engCtrl]

/-- Part 2 of the list of every register. -/
def regNames2 : List RegName :=
  [.engStatus, .engFlags, .traprec0, .traprec1, .trapdesc, .errrec0, .errrec1, .donecnt, .evcnt, .cachecnt, .engEcccnt, .bankStatus, .bankEccrec, .bankEcccnt, .atomcnt, .waitmax]

/-- Part 3 of the list of every register. -/
def regNames3 : List RegName :=
  [.scrub, .secpast, .secrej, .nodeId, .nodeStatus, .nodeCfg, .nodeErrcnt0, .nodeErrcnt1, .combcnt, .slotwait, .bridgecnt, .probectl, .probematch0, .probemask0, .probematch1, .probemask1]

/-- Part 4 of the list of every register. -/
def regNames4 : List RegName :=
  [.probecnt, .probethr, .probestat, .cfgStatus, .cfgSlot, .cfgErr, .cfgErrarg, .cfgGuard, .guardcnt, .wgCtrl, .wgStatus, .wgSeq, .cfgDigest, .cellin, .cellcfg, .seg]

/-- Part 5 of the list of every register. -/
def regNames5 : List RegName :=
  [.pinCfg, .pinOut, .pinSafe, .iobank, .pgCfg, .pgTime, .pgWidth, .pgCmd, .pgSafeLo, .pgSafeHi, .pgStat, .pgLast, .encCfg, .encCount, .encStat, .ticksel]

/-- Part 6 of the list of every register. -/
def regNames6 : List RegName :=
  [.syncphy, .syncstat, .clkstat, .prbmux, .laneCfg, .laneStatus, .ingcfg, .ingsrc, .inggeom, .ingrows, .ingplanes, .ingstat, .rxcnt0, .rxcnt1, .rxcnt2, .timerxLo]

/-- Part 7 of the list of every register. -/
def regNames7 : List RegName :=
  [.timerxHi, .statusrx, .statusinfo, .ptptimeLo, .ptptimeHi, .ptprate, .ptpstepLo, .ptpstepHi, .laneIpv4, .laneMcast, .macLo, .macHi, .egCfg, .egTime, .egCmd, .egAux]

/-- Part 8 of the list of every register. -/
def regNames8 : List RegName :=
  [.egStat, .cmdhdr, .cpayLo, .cpayHi, .rpayLo, .rpayHi, .rpaymax, .doorbell, .mboxStatus, .rsphdr, .evtSrc, .evtPend, .ringbaseLo, .ringbaseHi, .ringcfg, .ringhead]

/-- Part 9 of the list of every register. -/
def regNames9 : List RegName :=
  [.ringtail, .evtStat, .holdoff, .dmaCtrl, .dmaBaseLo, .dmaBaseHi, .dmaRingcfg, .dmaTail, .dmaHead, .dmaStatus, .rxbaseLo, .rxbaseHi, .rxtail, .rxhead, .txbaseLo, .txbaseHi]

/-- Part 10 of the list of every register. -/
def regNames10 : List RegName :=
  [.txtail, .txhead, .rxcfg, .txcfg, .rxdrop, .usbStatus, .bootstat, .selftest, .rstcause, .boottime, .supStatus, .supVin, .supCount, .thermStatus, .thermPeak, .thermTemp]

/-- Part 11 of the list of every register. -/
def regNames11 : List RegName :=
  [.hubSubst, .cairnStatus, .cairnNewest, .cairnOldest, .cairnAck, .cairnWinsel, .cairnWinstat, .cairnWin, .presStatus, .presCount, .lcStatus, .updStatus, .updHealth, .updGoodfr, .setStatus, .setGen]

/-- Part 12 of the list of every register. -/
def regNames12 : List RegName :=
  [.nodeTrace, .msixAddrLo, .msixAddrHi, .msixData, .msixCtrl, .msixPba]

/-- Every register name. -/
def regNames : List RegName :=
  regNames0 ++ regNames1 ++ regNames2 ++ regNames3 ++ regNames4 ++ regNames5 ++ regNames6 ++ regNames7 ++ regNames8 ++ regNames9 ++ regNames10 ++ regNames11 ++ regNames12

/-- One register: a name and its two indexes (0 where the table has none). -/
structure Reg where
  name : RegName
  i : Nat := 0
  j : Nat := 0
  deriving DecidableEq, Repr

/-- The BAR0 address of a register. -/
def Reg.addr (r : Reg) : Nat :=
  r.name.row.base + r.i * r.name.row.istride + r.j * r.name.row.jstride

/-- The element of one table at an address, if the address is one of its registers. -/
def RegRow.index (w : RegRow) (a : Nat) : Option (Nat × Nat) :=
  if a < w.base then none
  else
    let d := a - w.base
    let i := if w.istride = 0 then 0 else min (d / w.istride) (w.icount - 1)
    let d' := d - i * w.istride
    let j := if w.jstride = 0 then 0 else min (d' / w.jstride) (w.jcount - 1)
    if d' = j * w.jstride then some (i, j) else none

/-- The register a BAR0 address names; none for an unmapped address (R389). -/
def regAt (a : Nat) : Option Reg :=
  regNames.findSome? fun n => (n.row.index a).map fun p => ⟨n, p.1, p.2⟩

/-- The bits of one field. -/
def Field.mask (f : Field) : BitVec 32 := BitVec.ofNat 32 ((2 ^ (f.hi + 1 - f.lo) - 1) <<< f.lo)

/-- The bits of a table whose class satisfies `p`. -/
def RegRow.maskOf (w : RegRow) (p : RClass → Bool) : BitVec 32 :=
  (w.fields.filter fun f => p f.cls).foldl (fun m f => m ||| f.mask) 0

/-- The reset value a table's fields give. -/
def RegRow.rstVal (w : RegRow) : BitVec 32 :=
  w.fields.foldl (fun m f => m ||| BitVec.ofNat 32 (f.rst <<< f.lo)) 0

end Sys2Proof.Machine
end

