-- ==== Sys2Proof/Machine/ArrayTypes.lean ====
section
/-! DEFINITION. The state of folds, sequencers and pens (chapters 02 to 05). -/

namespace Sys2Proof.Machine

/-- The power state of a fold, a bank or an engine (R81, R173, R233), `waking` on its way to ON. -/
inductive Power
  | off | retain | on | waking
  deriving DecidableEq, Repr

/-- The state of a hurdle (R270, NODE[N].STATUS.HSTATE). -/
inductive Hurdle
  | opened | closing | closed
  deriving DecidableEq, Repr

/-- FOLD[PF].ID.ROLE. -/
inductive Role
  | active | spare | isolated
  deriving DecidableEq, Repr

/-- The routing mode of a pair of pen edges (R69). -/
inductive EdgeMode
  | fill | wrap | skew
  deriving DecidableEq, Repr

/-- A return-stack entry (R104). -/
structure Ent where
  pc : BitVec 14 := 0
  wb : BitVec 11 := 0
  deriving DecidableEq, Repr

/-- A repeat in progress (R111 to R115): the prefix's address, the repetitions left, the index of the next one,
the direction and whether a stop may end it at a repetition boundary. -/
structure Rep where
  start : BitVec 14
  left : Nat
  i : Nat
  down : Bool
  intr : Bool
  /-- Of a stopped pen's non-interruptible repeat: the cycle its next repetition starts in, and the last one that a repetition may end in
  (R31). -/
  stop : Option (Nat × Nat) := none
  deriving DecidableEq, Repr

/-- A pending reduction: its kind and the value its contributing PEs supplied (R150). -/
structure Reduction where
  tally : Bool
  value : BitVec 21
  deriving DecidableEq, Repr

/-- What a run-ahead snapshot holds of one fold: W, C, A, T and the 32 planes of the confined range (R160). -/
structure FoldSnap where
  w : Plane
  c : Plane
  a : Plane
  t : Plane
  planes : List Plane
  deriving DecidableEq, Repr

/-- The part of a sequencer that a cancel restores (R160, R166). -/
structure SeqCore where
  wb : BitVec 11 := 0
  s : Vector Half 8 := Vector.replicate 8 0
  stack : Vector Ent 16 := Vector.replicate 16 {}
  ptr : Fin 16 := 0
  depth : Nat := 0
  deriving DecidableEq, Repr

/-- Run-ahead in progress (R157 to R160): the prediction, the alternate target, the run-ahead instructions issued
and the snapshot. -/
structure RunAhead where
  p : Bool
  alt : BitVec 14
  count : Nat
  core : SeqCore
  folds : List (Nat × FoldSnap)
  deriving DecidableEq, Repr

/-- The read latches of R126 and R128, the MARK value (R128) and the once-per-stage marks of R106 and R129. -/
structure SeqLatches where
  mrLatch : Vector Dword 4 := Vector.replicate 4 0
  tallyHi : Half := 0
  cycleHi : Half := 0
  epoch1 : Half := 0
  epoch2 : Half := 0
  mark : Half := 0
  illFired : Bool := false
  stkFired : Bool := false
  deriving DecidableEq, Repr

/-- One fold's sequencer. Only the leader's issues (R66). -/
structure Seq where
  pc : BitVec 14 := 0
  core : SeqCore := {}
  rep : Option Rep := none
  /-- A DLD or GIN whose register is written after the next instruction (R121). -/
  load : Option (Fin 8 × Half) := none
  latch : Bool := false
  tally : BitVec 21 := 0
  red : Option Reduction := none
  ra : Option RunAhead := none
  /-- CANCEL: the alternate target the pen returns to (R166). -/
  cancel : Option (BitVec 14) := none
  /-- Stalled in WAITM, or in a SPEC with RADIS = 1, until the pending reduction resolves (R155, R170). -/
  stall : Bool := false
  mr : Vector Dword 4 := Vector.replicate 4 0
  mrReady : BitVec 4 := 0
  mrPend : BitVec 4 := 0
  /-- The dispatch that owns each MR (R140). -/
  mrOwner : Vector Nat 4 := Vector.replicate 4 0
  lat : SeqLatches := {}
  /-- Stopped by a lockstep mismatch until the end of the frame (R77). -/
  dead : Bool := false
  deriving DecidableEq, Repr

/-- One move in a plane mover's queue (R142): direction, plane, the bank it names, slot, rows already
moved, the speculative mark of R165; of a move to another fold's bank its rows as read for the packet or as the packet brought
them, and the tag of its request once that is sent (R144). -/
structure Move where
  out : Bool
  plane : BitVec 11
  bank : Nat
  slot : BitVec 10
  row : Nat
  spec : Bool
  data : List Dword := []
  tag : Option (BitVec 13) := none
  /-- When its next row came to the port (R219). -/
  since : Nat := 0
  deriving DecidableEq, Repr

/-- A histogram contribution in a tally unit: the target bank, the table's first word and the distinct bin values not
yet handled with their counts, lowest first; before that A as captured, the field's first plane, its planes as far as they have
been read, lowest first, and the rows still to be read (R147, R148). -/
structure Histo where
  bank : Nat
  base : Half
  bins : List (Nat × Nat) := []
  mask : Plane := 0
  first : Nat := 0
  planes : List Plane := []
  left : Nat := 0
  deriving DecidableEq, Repr

/-- A descriptor on its way to a word engine, or in its queue: the engine, the fold and MR it came from, the dispatch,
the frame epoch bit and the 32 bytes (R140, R174). -/
structure Dispatch where
  engine : Nat
  pf : Nat
  mr : Nat
  id : Nat
  fep : Bool
  bytes : List Byte
  deriving DecidableEq, Repr

/-- The PE registers of a fold (R53), and the ingest tap its corner-turner presents (R60, R376). -/
structure PeRegs where
  w : Plane := 0
  c : Plane := 0
  a : Plane := 0
  t : Plane := 0
  x : Plane := 0
  tap : Plane := 0
  deriving DecidableEq, Repr

/-- What fills a fold's program memory and D-space where no word is listed: 0 from the self-test on (R397), what a load puts above
a program (R283), or what OFF lost, by the draw that stands for it (R81, log entry 4). -/
inductive Fill
  | blank
  | loaded
  | lost (seed : Nat)
  deriving DecidableEq, Repr

/-- One physical fold. -/
structure Fold where
  power : Power := .off
  role : Role := .spare
  lf : Nat := 0
  /-- The hurdle between the fold and its node, and the state the fold takes once it has sealed (R270). -/
  hurdle : Hurdle := .closed
  goal : Option Power := none
  lost : Bool := false
  subst : Bool := false
  pe : PeRegs := {}
  moves : List Move := []
  /-- When a unit used the plane port last (R58). -/
  portAt : Option Nat := none
  histo : Option Histo := none
  /-- A parity error in the current frame (R76), FAULT already fired in it (R80), the heartbeat arrived (R79). -/
  parFrame : Bool := false
  faultFired : Bool := false
  beat : Bool := false
  /-- 0, or the draw by which OFF lost the fold's contents (R81). -/
  seed : Nat := 0
  /-- What the unlisted words of program memory and D-space are. -/
  fill : Fill := .blank
  lnsrc : Option Nat := none
  lesrc : Option Nat := none
  /-- Carried planes this fold has copied to its alternate buffer in this frame (R45). -/
  copied : List Nat := []
  /-- Carried planes a spare has still to ask its logical fold's bank for (R253, R446). -/
  owed : List Nat := []
  seq : Seq := {}
  deriving DecidableEq, Repr

/-- A PENS record (R282). -/
structure PenCfg where
  first : Nat
  count : Nat
  width : Nat
  ew : EdgeMode
  ns : EdgeMode
  shed : Bool
  carried : Nat
  cbase : Nat
  ckslot : Nat
  entry : BitVec 14
  hinted : Nat
  deriving DecidableEq, Repr

/-- A pen: its record and what it does in the current frame. -/
structure Pen where
  cfg : PenCfg
  /-- The recorded power state of R435, and whether the pen is shed (R440). -/
  recorded : Power := .on
  shedNow : Bool := false
  /-- The physical fold that leads (R65). -/
  leader : Option Nat := none
  /-- Whether the pen took frame entry in this frame, and whether it issues instructions now. -/
  entered : Bool := false
  run : Bool := false
  /-- Stopped for the rest of the frame (R30, R442), and the cycle it may first issue in (R83, R48). -/
  stopped : Bool := false
  notBefore : Nat := 0
  /-- The stage last entered and the stages it has yielded for. -/
  stage : Nat := 0
  yielded : List Nat := []
  late : Bool := false
  faulted : Bool := false
  restoreOwed : Bool := false
  restored : Bool := false
  /-- Carried planes hinted by CKPT in this frame (R45). -/
  hints : List Nat := []
  /-- Whether the frame completed at G + 832 (R46). -/
  completed : Bool := false
  /-- A spare substitution of this pen is under way and the pen has not rejoined (R39, R446). -/
  substPend : Bool := false
  /-- The substitution was complete when the closing frame reached G + 832 (R446). -/
  rejoinOk : Bool := false
  /-- A member became LOST since the last tick (R39). -/
  newLost : Bool := false
  /-- A spare took a failed member's place since the pen stopped (R446). -/
  substDone : Bool := false
  /-- The pen has been OFF since a load last placed it: its program memory is lost (R84). -/
  unloaded : Bool := false
  deriving DecidableEq, Repr

end Sys2Proof.Machine
end

