-- ==== Sys2Proof/Machine/FrameTypes.lean ====
section
/-! DEFINITION. The state of the frame, the configuration loader and the write groups (chapters 01 and 09). -/

namespace Sys2Proof.Machine

/-- The module states of R434. -/
inductive ModState
  | starting | off | standby | ready | run | shed | halted
  deriving DecidableEq, Repr

/-- The start-up phases of R411. -/
inductive Phase
  | t0 | rom | loader | firmware | standby | selftest | ready
  deriving DecidableEq, Repr

/-- The frame logic (chapter 01). -/
structure Frame where
  /-- ACLK cycles since t0 of the current start-up (R410). -/
  time : Nat := 0
  /-- The frame cycle (R17), and whether the first tick has come. -/
  cycle : Nat := 0
  ticked : Bool := false
  hold : Bool := false
  epoch : BitVec 48 := 0
  epochHiLatch : BitVec 16 := 0
  /-- A tick request is held (R15). -/
  held : Bool := false
  /-- The current frame was opened by a substituted tick whose late original has not come (R22). -/
  absorb : Bool := false
  /-- TICK_MISSED has fired in the current hold (R21). -/
  missed : Bool := false
  /-- The tick now due was substituted by the frame timer (R21). -/
  subst : Bool := false
  /-- The epoch of a valid EPOCH symbol received in the current frame (R51). -/
  rxEpoch : Option (BitVec 48) := none
  /-- Whether frame-scope work of guard-band step 1, 3, 4 and 6 has been done in this frame. -/
  guardDone : Bool := false
  g832 : Bool := false
  g960 : Bool := false
  deriving DecidableEq, Repr

/-- A stage record of SCHEDULE (R312): participants are pens by first logical fold, with their entries. -/
structure Stage where
  start : Nat
  deadline : Nat
  slotLen : Nat
  resLen : Nat
  parts : List (Nat × BitVec 14)
  deriving DecidableEq, Repr

/-- A run of a slot-table or reservation block: its length, its owner field and its entry field (R314, R315). -/
structure TabRun where
  len : Nat
  owner : BitVec 9
  entry : BitVec 12
  deriving DecidableEq, Repr

/-- A block of SLOT_TABLES, ALT_TABLES or RESERVATIONS (R314, R315): node or bank, network, stage, port. -/
structure TabBlock where
  unit : Nat
  net : Nat
  stage : Nat
  port : Nat
  runs : List TabRun
  deriving DecidableEq, Repr

/-- One route-and-table set: 0 normal, 1 to 8 the bridge sets (R313, R316). -/
structure TabSet where
  num : Nat
  routes : List (BitVec 288)
  blocks : List TabBlock
  deriving DecidableEq, Repr

/-- A segment driver: segment, driver code, owner field (R298). -/
structure SegDrv where
  seg : Nat
  drv : Nat
  owner : Nat
  deriving DecidableEq, Repr

/-- A SUBST block (R318). -/
structure SubstBlk where
  lf : Nat
  segs : List (Nat × Bool × Nat)
  blocks : List (Nat × TabBlock)
  deriving DecidableEq, Repr

/-- A register record (R284). -/
abbrev RegRec := Nat × Word

/-- A POWER record (R285): kind, state, index. -/
structure PowRec where
  kind : BitVec 2
  state : BitVec 2
  rsvd : BitVec 19
  index : BitVec 9
  deriving DecidableEq, Repr

/-- The sections of an image, read (R281 to R285, R298, R312 to R318). -/
structure Image where
  full : Bool
  pens : List PenCfg := []
  /-- Physical fold and alternate of each logical fold (R317). -/
  reloc : List (Nat × Option Nat) := []
  programs : List (Nat × List (BitVec 14) × List Half) := []
  /-- Long links: logical fold, north, source (FOLD_ROUTING). -/
  routing : List SegDrv := []
  period : Option Nat := none
  stages : Option (List Stage) := none
  tables : Option TabSet := none
  alts : List TabSet := []
  resv : Option (List TabBlock) := none
  subst : List SubstBlk := []
  regs : List (Nat × RegRec) := []
  power : List PowRec := []
  pinit : List (Nat × Nat × Bool × List Byte) := []
  deriving DecidableEq, Repr

/-- The states of a flash slot (R289). -/
inductive SlotState
  | empty | loading | verified | stored
  deriving DecidableEq, Repr

/-- A configuration slot: its state, what its header says, the pieces a session has written by offset, and the digest
CONFIG_END found. -/
structure Slot where
  st : SlotState := .empty
  partialImage : Bool := false
  enc : Bool := false
  length : Nat := 0
  pieces : Store (List Byte) := []
  digest : List Byte := []
  deriving DecidableEq, Repr

/-- The activation states of CFG.STATUS.ACT. -/
inductive Act
  | idle | pending | loading | ready | failed
  deriving DecidableEq, Repr

/-- The configuration in force (chapter 09). -/
structure InForce where
  digest : List Byte := []
  /-- The slot of the full image in force. -/
  slot : Option (Fin 3) := none
  enc : Bool := false
  reloc : List (Nat × Option Nat) := []
  stages : List Stage := []
  routing : List SegDrv := []
  tables : TabSet := ⟨0, [], []⟩
  alts : List TabSet := []
  resv : List TabBlock := []
  subst : List SubstBlk := []
  programs : List (Nat × List (BitVec 14) × List Half) := []
  /-- The logical folds whose SUBST table blocks apply, in the order of their substitutions (R318). -/
  patched : List Nat := []
  deriving DecidableEq, Repr

/-- An activation from T0 to T1 (R302 to R304): its image, digest and encryption, the pens it replaces by first logical
fold, and whether loading is complete. -/
structure Loading where
  img : Image
  digest : List Byte
  enc : Bool
  replaced : List Nat
  complete : Bool := false
  /-- The physical folds found failed since T0, in the order they failed, each with the alternate it has taken (R306, R317). -/
  failed : List (Nat × Option Nat) := []
  /-- The rails that carry 0 for this load (R339). -/
  rails : BitVec 32 := 0
  deriving DecidableEq, Repr

/-- A failed check: mailbox status, detail, argument, and the directory index CFG.ERR shows (R296, CFG.ERR). -/
structure ImgErr where
  status : Nat
  detail : Nat
  arg : Nat
  sect : Nat
  deriving DecidableEq, Repr

/-- The loader, its slots and sessions, the activation and the write groups. -/
structure Loader where
  slots : Vector Slot 3 := Vector.replicate 3 {}
  /-- The open session: its port (true: service port), slot, and when its last command came (R290, R294). -/
  session : Option (Bool × Fin 3 × Nat) := none
  /-- The host's next session command answers SESSION_OWNED (R291). -/
  stolen : Bool := false
  act : Act := .idle
  actSlot : Fin 3 := 0
  actEpoch : Nat := 0
  /-- G + 960 has passed since the request (R302). -/
  actArmed : Bool := false
  /-- The autoload choice to try or tried, 1 or 2 (R311); 0 when there is none, and for an activation by command. -/
  actAuto : Nat := 0
  /-- The failures of autoload choices that wait until no choice is left (R311). -/
  autoFails : List ImgErr := []
  load : Option Loading := none
  /-- The pens that a failed loading left stopped (R305). -/
  stopped : List Nat := []
  inForce : Option InForce := none
  /-- The open write group, its OVERFLOW mark, the armed group with its number (R320 to R324). -/
  wgOpen : List RegRec := []
  wgOver : Bool := false
  armed : Option (Nat × List RegRec × Bool) := none
  /-- The time the armed group was armed at, in ACLK cycles since t0 (R25). -/
  armedAt : Nat := 0
  wgNext : Nat := 1
  deriving DecidableEq, Repr

end Sys2Proof.Machine
end

