-- ==== Sys2Proof/Syntax.lean ====
section
/-! DEFINITION. The commands of the block and their operands. A pen is named by its first logical fold. -/

namespace Sys2Proof

/-- The target of a FLAG (R98). -/
inductive FlagTgt
  | w | c | a | t | x | m
  deriving DecidableEq, Repr

/-- The source of a FLAG (R98). -/
inductive FlagSrc
  | w | c | a | t | x | m | zero | one
  deriving DecidableEq, Repr

/-- The DIR field of NEIGH (R60, R97). -/
inductive NeighDir
  | n | e | s | w | longN | longE | bcast | ingest
  deriving DecidableEq, Repr

/-- The EDGE field of NEIGH (R69, R97). -/
inductive EdgeFill
  | zero | one | wrap
  deriving DecidableEq, Repr

/-- The four networks of R245. -/
inductive Net
  | req | rsp | data | snp
  deriving DecidableEq, Repr

/-- The rest of a packet: MRI, ENG, ACKREQ and the reserved bits of R248, ERR of R250, the engine mask and line of
an INVAL (R251), the payload words and the flit count. -/
structure PktBody where
  mri : BitVec 2 := 0
  eng : BitVec 2 := 0
  ackreq : Bool := false
  rsvd : BitVec 64 := 0
  err : BitVec 4 := 0
  mask : BitVec 4 := 0
  line : BitVec 13 := 0
  payload : List (BitVec 64) := []
  flits : Nat := 1
  deriving DecidableEq, Repr

/-- A packet: the header fields of R248, the response fields of R250, the snoop fields of R251, its payload words
and how many flits it came as. Fields its network does not carry are 0. -/
structure Pkt where
  net : Net := .req
  type : BitVec 5 := 0
  dst : BitVec 9 := 0
  src : BitVec 9 := 0
  unit : BitVec 3 := 0
  tag : BitVec 13 := 0x1FFF
  fepv : Bool := false
  fep : Bool := false
  tep : Bool := false
  vc : BitVec 2 := 1
  urg : BitVec 4 := 0
  leg : BitVec 2 := 0
  len : BitVec 6 := 0
  bmask : BitVec 8 := 0
  word : BitVec 16 := 0
  body : PktBody := {}
  deriving DecidableEq, Repr

/-- How a packet head comes to a router: injected by a unit of the node at an input, or over the link that ends at an input,
on one network, in the first or second NCLK cycle of the ACLK cycle (R241, R257). Inputs are coded as in
NODE[N].PROBECTL.PORT. -/
inductive RouteFrom
  | inject (inp : Fin 7) (p : Pkt)
  | link (inp : Fin 7) (net : Net) (half : Bool)
  deriving DecidableEq, Repr

/-- A power domain behind a hurdle (R269, R270). -/
inductive Dom
  | fold (pf : Fin 272)
  | bank (b : Fin 272)
  | engine (e : Fin 32)
  deriving DecidableEq, Repr

/-- A mailbox command as it reaches the shepherd firmware (R391, R394, R399, R401): the port (true: service port), the header
bytes of a service-port command, the payload, whether host memory could be read and written, whether the flash store takes a
write, and the row of the secure pasture that fails a wipe's second read-back (R239). -/
structure MboxReq where
  svc : Bool
  hdr : List Byte
  payload : List Byte
  readOk : Bool := true
  writeOk : Bool := true
  flashOk : Bool := true
  bad : Option (Fin 4096) := none
  deriving DecidableEq, Repr

/-- An egress channel: a pin group, or a channel of a lane (R36). -/
inductive EgCh
  | pins (g : Fin 16)
  | lane (l : Fin 32) (k : Fin 4)
  deriving DecidableEq, Repr

/-- What the self-test found (R416): failed sub-arrays of banks, soft repairs as bank, sub-array and column, failed folds
and engines with the failing test, failed lanes, bridges that did not train. -/
structure SelfTest where
  banks : List (Fin 272 × Fin 4) := []
  soft : List (Fin 272 × Fin 4 × Nat) := []
  folds : List (Fin 272 × Byte) := []
  engines : List (Fin 32 × Byte) := []
  lanes : List (Fin 32) := []
  bridges : List (Fin 8) := []
  deriving DecidableEq, Repr

/-- How a spare substitution ends (R443, R445): complete; the spare has not reached ON in 1,000 ACLK cycles; the spare has failed
the check that FAULTSTAT shows at bit 1 (lockstep), 2 (Muster tree) or 3 (heartbeat). -/
inductive SpareFate
  | complete
  | noWake
  | failed (check : Fin 3)
  deriving DecidableEq, Repr

/-- What happens at the shepherd mark or at PRESENCE_N (R455). -/
inductive HoldEvent
  | keyAppears
  | keyLeaves
  | wrongField
  | pinLow
  | pinHigh
  deriving DecidableEq, Repr

/-- The commands of the block: one constructor for each row of the opcode table. -/
inductive Instr
  /-- TICK (R24). A tick opens a new frame and applies the ordered tick actions: epoch advance, pending activation, write-group commit,
  table switch, power and leader changes, frame entry, restores and LATEMAP latch. -/
  | tick
  /-- HOLD (R16). Cycle P passes with no tick request held, and the module enters hold. -/
  | hold
  /-- TICK_MISSED (R21). No tick request is held at cycle P + WAIT; the miss is counted and MISSPOL substitutes a tick or keeps waiting. -/
  | tickMissed
  /-- TICK_NET_EDGE (R348). A rising edge on the tick net becomes a tick request, held, absorbed or discarded as extra. -/
  | tickNetEdge (pin : Option Bool := none)
  /-- PTP_COMPARE (R19). The lane PTP clock reaches FRAME.LTNEXT; this requests a tick and LTNEXT advances by LTINTV. -/
  | ptpCompare
  /-- HOSTTICK (R18). A write of 1 to FRAME.HOSTTICK.TICK requests a tick when SRC is HOST. -/
  | hosttick (w : Word)
  /-- TICK_SYMBOL (R50). A TICK symbol arrives on SYNC_IN; it is repeated onto SYNC_OUT and, after the position delay, becomes a tick request. -/
  | tickSymbol
  /-- EPOCH_SYMBOL (R51). An EPOCH symbol arrives on SYNC_IN; it is repeated, its CRC-8 is checked, and it is kept for the next tick. -/
  | epochSymbol (epoch : BitVec 48) (crc : Byte)
  /-- STAGE_START (R29). At a stage's start cycle, each participating pen jumps to its stage entry with WB 0 and an empty return stack. -/
  | stageStart (k : Fin 16)
  /-- DEADLINE_STOP (R30). At a stage deadline, a pen that has not yielded is stopped and marked LATE, and any run-ahead is cancelled. -/
  | deadlineStop (k : Fin 16)
  /-- GUARD_BAND (R32). At cycle G, scheduled VC0 injection ends, running descriptors are abandoned and a SYNC head sends EPOCH. -/
  | guardBand (done : List (Fin 32 × Nat))
  /-- CHECKPOINT_FLUSH (R45). From G + 64, folds of completed pens copy their unhinted carried planes to the alternate buffer. -/
  | checkpointFlush (cut : List (Fin 272))
  /-- CHECKPOINT_VALIDITY (R46). At G + 832, the folds of each completing pen make their alternate buffers valid together. -/
  | checkpointValidity
  /-- READINESS_LATCH (R304). At G + 960, an activation whose loading has completed is marked ready, and routers reload with the new tables. -/
  | readinessLatch
  /-- EGRESS_LATCH (R36). At its latch cycle, an egress channel latches the pen's command, the late-policy command or the no-action command. -/
  | egressLatch (ch : EgCh)
  /-- EMISSION (R343). A pin group emits a queued command at its emission cycle, and its pins take their new levels. -/
  | emission (g : Fin 16)
  /-- PULSE_TIMER_EXPIRY (R344). In PULSE mode, a pin's width timer expires and the pin is de-energised. -/
  | pulseTimerExpiry (p : Fin 192)
  /-- ACTUATE (R380). An ACTUATE message falls due and is sent on a Filop Link lane. -/
  | actuate (l : Fin 32) (k : Fin 4)
  /-- DRAIN_WINDOW_CLOSE (R264). The 2 µs drain window ends; from then on, packets of the old table epoch are absorbed. -/
  | drainWindowClose
  /-- HEARTBEAT (R79). A fold's HEARTBEAT reaches the hub. -/
  | heartbeat (pf : Fin 272)
  /-- HEARTBEAT_MISSED (R79). At frame cycle 2,000, a fold whose heartbeat has not arrived is treated as failed. -/
  | heartbeatMissed (pf : Fin 272)
  /-- PEN_WAKE (R83). A pen back from RETAIN reaches ON at frame cycle 1,000 and may then issue. -/
  | penWake (p : Fin 256)
  /-- BANK_WAKE (R235). A waking bank opens its hurdle at frame cycle 500, or at 2,048 after clearing from OFF. -/
  | bankWake (b : Fin 272)
  /-- BITOP_AND (R134). W gets W AND b. -/
  | bitopAnd (p : Fin 256) (cond : BitVec 2) (off : BitVec 6)
  /-- BITOP_OR (R134). W gets W OR b. -/
  | bitopOr (p : Fin 256) (cond : BitVec 2) (off : BitVec 6)
  /-- BITOP_XOR (R134). W gets W XOR b. -/
  | bitopXor (p : Fin 256) (cond : BitVec 2) (off : BitVec 6)
  /-- BITOP_ADD (R134). Full add of W, b and C into W, with carry into C. -/
  | bitopAdd (p : Fin 256) (cond : BitVec 2) (off : BitVec 6)
  /-- BITOP_SUB (R134). Subtract with inverted borrow into W and C. -/
  | bitopSub (p : Fin 256) (cond : BitVec 2) (off : BitVec 6)
  /-- BITOP_ANDN (R134). W gets W AND NOT b. -/
  | bitopAndn (p : Fin 256) (cond : BitVec 2) (off : BitVec 6)
  /-- BITOP_MUX (R134). W gets b where T is 1, and keeps W elsewhere. -/
  | bitopMux (p : Fin 256) (cond : BitVec 2) (off : BitVec 6)
  /-- CMPB (R134). A compare step updates C with the inverted borrow. -/
  | cmpb (p : Fin 256) (cond : BitVec 2) (off : BitVec 6)
  /-- LD (R135). W gets the B-space bit. -/
  | ld (p : Fin 256) (cond : BitVec 2) (off : BitVec 6)
  /-- ST (R135). W is stored to the B-space bit. -/
  | st (p : Fin 256) (cond : BitVec 2) (off : BitVec 6)
  /-- LDN (R135). W gets NOT of the B-space bit. -/
  | ldn (p : Fin 256) (cond : BitVec 2) (off : BitVec 6)
  /-- STC (R135). C is stored to the B-space bit. -/
  | stc (p : Fin 256) (cond : BitVec 2) (off : BitVec 6)
  /-- FLAG_MOV (R136). The target register, or the Muster latch, gets the source value. -/
  | flagMov (p : Fin 256) (cond : BitVec 2) (tgt : FlagTgt) (src : FlagSrc)
  /-- FLAG_AND (R136). Target gets target AND source. -/
  | flagAnd (p : Fin 256) (cond : BitVec 2) (tgt : FlagTgt) (src : FlagSrc)
  /-- FLAG_OR (R136). Target gets target OR source. -/
  | flagOr (p : Fin 256) (cond : BitVec 2) (tgt : FlagTgt) (src : FlagSrc)
  /-- FLAG_XOR (R136). Target gets target XOR source. -/
  | flagXor (p : Fin 256) (cond : BitVec 2) (tgt : FlagTgt) (src : FlagSrc)
  /-- FLAG_ANDN (R136). Target gets target AND NOT source. -/
  | flagAndn (p : Fin 256) (cond : BitVec 2) (tgt : FlagTgt) (src : FlagSrc)
  /-- FLAG_MOVN (R136). Target gets NOT source. -/
  | flagMovn (p : Fin 256) (cond : BitVec 2) (tgt : FlagTgt) (src : FlagSrc)
  /-- FLAG_SWAP (R136). Target and source exchange values. -/
  | flagSwap (p : Fin 256) (cond : BitVec 2) (tgt : FlagTgt) (src : FlagSrc)
  /-- NEIGH (R60). X values move across neighbour, long, broadcast or ingest links, with pen-edge rules applied. -/
  | neigh (p : Fin 256) (cond : BitVec 2) (dir : NeighDir) (edge : EdgeFill)
  /-- SEQ_ADD (R138). Sd gets Sd + Ss. -/
  | seqAdd (p : Fin 256) (cond : BitVec 2) (d r : Fin 8)
  /-- SEQ_SUB (R138). Sd gets Sd − Ss. -/
  | seqSub (p : Fin 256) (cond : BitVec 2) (d r : Fin 8)
  /-- SEQ_AND (R138). Sd gets the bitwise AND of Sd and Ss. -/
  | seqAnd (p : Fin 256) (cond : BitVec 2) (d r : Fin 8)
  /-- SEQ_OR (R138). Sd gets the bitwise OR of Sd and Ss. -/
  | seqOr (p : Fin 256) (cond : BitVec 2) (d r : Fin 8)
  /-- SEQ_XOR (R138). Sd gets the bitwise XOR of Sd and Ss. -/
  | seqXor (p : Fin 256) (cond : BitVec 2) (d r : Fin 8)
  /-- SEQ_MOV (R138). Sd gets Ss. -/
  | seqMov (p : Fin 256) (cond : BitVec 2) (d r : Fin 8)
  /-- CMPEQ (R138). Sd gets 1 when Sd equals Ss, else 0. -/
  | cmpeq (p : Fin 256) (cond : BitVec 2) (d r : Fin 8)
  /-- CMPLT (R138). Sd gets 1 when Sd is below Ss as signed values, else 0. -/
  | cmplt (p : Fin 256) (cond : BitVec 2) (d r : Fin 8)
  /-- REPU (R115). Non-interruptible repeat prefix with offsets stepping up. -/
  | repu (p : Fin 256) (cond : BitVec 2) (arg : BitVec 6)
  /-- REPD (R115). Non-interruptible repeat prefix with offsets stepping down. -/
  | repd (p : Fin 256) (cond : BitVec 2) (arg : BitVec 6)
  /-- REPUI (R115). Interruptible repeat prefix with offsets stepping up. -/
  | repui (p : Fin 256) (cond : BitVec 2) (arg : BitVec 6)
  /-- CALL (R103). Pushes the return entry, slides WB and jumps to the target. -/
  | call (p : Fin 256) (cond : BitVec 2) (k : BitVec 6) (target : BitVec 14)
  /-- RET (R103). Pops the return stack and restores PC and WB. -/
  | ret (p : Fin 256) (cond : BitVec 2)
  /-- BR (R107). Absolute branch when the condition holds. -/
  | br (p : Fin 256) (cond : BitVec 2) (target : BitVec 14)
  /-- MUSTER (R150). Requests a global OR of W over the contributing PEs of the pen. -/
  | muster (p : Fin 256) (cond : BitVec 2)
  /-- TALLY (R150). Requests a count of W over the contributing PEs of the pen. -/
  | tally (p : Fin 256) (cond : BitVec 2)
  /-- RESOLUTION (R152). A pending reduction resolves; its result is written, and run-ahead commits or enters CANCEL. -/
  | resolution (p : Fin 256) (treeFault : Option (Fin 272))
  /-- CANCEL_END (R166). Three cycles after a cancel, the pen returns to NORMAL at the alternate target. -/
  | cancelEnd (p : Fin 256)
  /-- NOP (R109). Does nothing. -/
  | nop (p : Fin 256) (cond : BitVec 2)
  /-- YIELD (R29). Ends the pen's work for the current stage. -/
  | yield (p : Fin 256) (cond : BitVec 2)
  /-- WAITM (R155). Stalls until the pending reduction resolves. -/
  | waitm (p : Fin 256) (cond : BitVec 2)
  /-- SPEC_PREDICT_0 (R157). Starts run-ahead predicting 0 and takes a snapshot. -/
  | specPredict0 (p : Fin 256) (cond : BitVec 2)
  /-- SPEC_PREDICT_1 (R157). Starts run-ahead predicting 1 and takes a snapshot. -/
  | specPredict1 (p : Fin 256) (cond : BitVec 2)
  /-- HALT (R109). The pen issues nothing until the tick and counts as having yielded for the remaining stages. -/
  | halt (p : Fin 256) (cond : BitVec 2)
  /-- IO_READ (R124). Reads a fold-local IO register into S, latching multi-part values. -/
  | ioRead (p : Fin 256) (cond : BitVec 2) (r : Fin 8) (addr : BitVec 5)
  /-- IO_WRITE (R124). Writes S to a fold-local IO register, such as WB. -/
  | ioWrite (p : Fin 256) (cond : BitVec 2) (r : Fin 8) (addr : BitVec 5)
  /-- LDI (R116). S gets the zero-extended immediate. -/
  | ldi (p : Fin 256) (cond : BitVec 2) (r : Fin 8) (imm : BitVec 14)
  /-- LDIN (R116). S gets the sign-extended immediate. -/
  | ldin (p : Fin 256) (cond : BitVec 2) (r : Fin 8) (imm : BitVec 14)
  /-- LDIH (R116). Sets the top two bits of S. -/
  | ldih (p : Fin 256) (cond : BitVec 2) (r : Fin 8) (value : BitVec 2)
  /-- ADDI (R116). Adds the sign-extended immediate to S. -/
  | addi (p : Fin 256) (cond : BitVec 2) (r : Fin 8) (imm : BitVec 14)
  /-- DLD (R121). Loads a D-space word into S after one delay cycle. -/
  | dld (p : Fin 256) (cond : BitVec 2) (r : Fin 8) (indexed : Bool) (addr : BitVec 12)
  /-- DST (R123). Stores S to D-space, mirrored to every member. -/
  | dst (p : Fin 256) (cond : BitVec 2) (r : Fin 8) (indexed : Bool) (addr : BitVec 12)
  /-- REPS (R111). Repeat prefix whose count comes from an S register. -/
  | reps (p : Fin 256) (cond : BitVec 2) (r : Fin 8) (down : Bool)
  /-- GIN (R121). Loads a global IO value into S. -/
  | gin (p : Fin 256) (cond : BitVec 2) (r : Fin 8) (addr : BitVec 8)
  /-- GOUT (R139). Writes S to a global IO register, such as MARK. -/
  | gout (p : Fin 256) (cond : BitVec 2) (r : Fin 8) (addr : BitVec 8)
  /-- WEGO (R140). Captures a D-space descriptor, dispatches it to a word engine and sets MRSTAT.PENDING. -/
  | wego (p : Fin 256) (cond : BitVec 2) (r : Fin 8) (engine : Fin 32) (mr : Fin 4)
  /-- PLANE_OUT (R142). Queues a move of a B-space plane to a pasture slot. -/
  | planeOut (p : Fin 256) (cond : BitVec 2) (r : Fin 8) (bank : BitVec 8) (off : BitVec 6)
  /-- PLANE_IN (R142). Queues a move of a pasture slot into a B-space plane. -/
  | planeIn (p : Fin 256) (cond : BitVec 2) (r : Fin 8) (bank : BitVec 8) (off : BitVec 6)
  /-- PLANE_MOVE_COMPLETE (R146). The last row of a plane move is written, and the move completes. -/
  | planeMoveComplete (pf : Fin 272)
  /-- HISTO (R147). Starts a histogram contribution from a bin-index field into the tally unit. -/
  | histo (p : Fin 256) (cond : BitVec 2) (r : Fin 8) (widthM1 : BitVec 4) (remote : Bool) (off : BitVec 6)
  /-- HISTO_PASS (R148). A tally-unit pass scans up to 64 bins and issues one posted add per bin. -/
  | histoPass (pf : Fin 272)
  /-- CKPT (R45). Hints a carried plane for copy to the alternate buffer. -/
  | ckpt (p : Fin 256) (cond : BitVec 2) (plane : BitVec 11)
  /-- CHECKPOINT_COPY (R45). A hinted carried plane is copied to the alternate buffer in reserved bank cycles. -/
  | checkpointCopy (pf : Fin 272)
  /-- STKCFG_EMPTY (R120). Empties the return stack. -/
  | stkcfgEmpty (p : Fin 256) (cond : BitVec 2)
  /-- STKCFG_DROP (R120). Drops the top return-stack entry without changing PC or WB. -/
  | stkcfgDrop (p : Fin 256) (cond : BitVec 2)
  /-- UNDEFINED_ENCODING (R129). An undefined encoding executes as NOP, raises ILLEGAL and marks the pen FAULTED. -/
  | undefinedEncoding (p : Fin 256) (w0 w1 w2 : BitVec 14)
  /-- LOCKSTEP_MISMATCH (R77). The two sequencer copies disagree; the sequencer stops issuing and the fold is treated as failed. -/
  | lockstepMismatch (pf : Fin 272)
  /-- DISPATCH (R182). A descriptor arrives at a word engine and is queued, or is refused when the queue is full. -/
  | dispatch (e : Fin 32)
  /-- ENG_COPY (R179). The engine runs a COPY descriptor. -/
  | engCopy (e : Fin 32)
  /-- ENG_ADD (R179). The engine runs an element-wise ADD descriptor. -/
  | engAdd (e : Fin 32)
  /-- ENG_SUB (R179). The engine runs an element-wise SUB descriptor. -/
  | engSub (e : Fin 32)
  /-- ENG_MUL (R179). The engine runs an element-wise MUL descriptor. -/
  | engMul (e : Fin 32)
  /-- ENG_FMA (R179). The engine runs an element-wise fused multiply-add descriptor. -/
  | engFma (e : Fin 32)
  /-- ENG_DIV (R188). The engine runs a floating-point or integer DIV descriptor. -/
  | engDiv (e : Fin 32)
  /-- ENG_SQRT (R179). The engine runs a square-root descriptor. -/
  | engSqrt (e : Fin 32)
  /-- ENG_MIN (R196). The engine runs an element-wise MIN descriptor. -/
  | engMin (e : Fin 32)
  /-- ENG_MAX (R196). The engine runs an element-wise MAX descriptor. -/
  | engMax (e : Fin 32)
  /-- ENG_ABS (R179). The engine runs an ABS descriptor. -/
  | engAbs (e : Fin 32)
  /-- ENG_NEG (R179). The engine runs a NEG descriptor. -/
  | engNeg (e : Fin 32)
  /-- ENG_CONVERT (R197). The engine runs a type-conversion descriptor. -/
  | engConvert (e : Fin 32)
  /-- COMPARE_EQ (R196). The engine runs an equality COMPARE descriptor. -/
  | compareEq (e : Fin 32)
  /-- COMPARE_LT (R196). The engine runs a less-than COMPARE descriptor. -/
  | compareLt (e : Fin 32)
  /-- COMPARE_LE (R196). The engine runs a less-or-equal COMPARE descriptor. -/
  | compareLe (e : Fin 32)
  /-- COMPARE_UN (R196). The engine runs an unordered COMPARE descriptor. -/
  | compareUn (e : Fin 32)
  /-- ENG_SCALE (R179). The engine runs a scaleB descriptor. -/
  | engScale (e : Fin 32)
  /-- REDUCE_SUM (R181). The engine runs a scalar sum reduction and posts the result. -/
  | reduceSum (e : Fin 32)
  /-- REDUCE_MIN (R181). The engine runs a scalar minimum reduction and posts the result. -/
  | reduceMin (e : Fin 32)
  /-- REDUCE_MAX (R181). The engine runs a scalar maximum reduction and posts the result. -/
  | reduceMax (e : Fin 32)
  /-- ENG_DOT (R181). The engine runs a dot-product descriptor and posts the result. -/
  | engDot (e : Fin 32)
  /-- MRPOST (R127). A result posting reaches the issuing fold's MR, or is absorbed as stale. -/
  | mrpost (pf : Fin 272)
  /-- READ (R249). A READ request reaches a bank and is performed under port arbitration. -/
  | read (p : Pkt) (waits same : Bool)
  /-- WRITE1 (R249). A single-word, byte-masked write reaches a bank. -/
  | write1 (p : Pkt) (waits same : Bool)
  /-- WRITEB (R249). A bulk write reaches a bank. -/
  | writeb (p : Pkt) (waits same : Bool)
  /-- ADD_P (R225). A posted add reaches a bank and is added into the word. -/
  | addP (p : Pkt) (waits same : Bool)
  /-- ADD_R (R221). A returning add is performed, and the old value is returned. -/
  | addR (p : Pkt) (waits same : Bool)
  /-- SWAP_P (R221). A posted swap writes the new value. -/
  | swapP (p : Pkt) (waits same : Bool)
  /-- SWAP_R (R221). A returning swap writes the new value and returns the old one. -/
  | swapR (p : Pkt) (waits same : Bool)
  /-- REGRD (R249). A register read request reaches a node or fold. -/
  | regrd (p : Pkt) (fold : Bool)
  /-- REGWR (R249). A register write request reaches a node or fold. -/
  | regwr (p : Pkt) (fold : Bool)
  /-- ACK (R250). An acknowledgement reaches the requester and releases its tag. -/
  | ack (p : Pkt)
  /-- RDATA (R250). Single-word read data reaches the requester. -/
  | rdata (p : Pkt)
  /-- RDATAB (R249). Multi-word read data reaches the requester. -/
  | rdatab (p : Pkt)
  /-- OLDVAL (R250). The old value of a returning atomic reaches the requester. -/
  | oldval (p : Pkt)
  /-- REGDATA (R250). Register read data reaches the requester. -/
  | regdata (p : Pkt)
  /-- ERROR (R268). An error response reaches the requester, which handles it according to its unit. -/
  | error (p : Pkt) (pos : Nat)
  /-- INVAL (R211). A cache invalidation reaches an engine, which drops the line. -/
  | inval (p : Pkt)
  /-- CANCEL (R165). A cancel reaches a bank, which withdraws the queued read of that tag. -/
  | cancel (p : Pkt)
  /-- EPOCH_NOTICE (R266). An opening domain takes its frame and table epochs from the hub's notice. -/
  | epochNotice (p : Pkt) (low : BitVec 16)
  /-- ROUTE_PACKET (R246). A packet head reaches a router and is routed, combined, absorbed as route-epoch-stale, or dropped as malformed. -/
  | routePacket (n : Fin 289) (src : RouteFrom)
  /-- URG_INCREMENT (R260). Each 256 NCLK cycles that a best-effort head waits, its urgency rises by 1. -/
  | urgIncrement (n : Fin 289) (net : Net) (port : Fin 7) (vc : BitVec 2)
  /-- ECC_WRITEBACK (R227). A corrected word is written back to the bank at priority 7. -/
  | eccWriteback (b : Fin 272)
  /-- PATROL_SCRUB (R230). The patrol scrub reads and corrects the next word in a granted cycle. -/
  | patrolScrub (b : Fin 272)
  /-- HURDLE_SEAL (R270). At the end of the drain, the hurdle sends ISOLATED for every open tag, and nothing more leaves the domain. -/
  | hurdleSeal (d : Dom)
  /-- BRIDGE_LOST (R274). A die bridge fails its retries or loses training, and both ends seal. -/
  | bridgeLost (bridge : Fin 8) (trained : Bool)
  /-- CONFIG_BEGIN (R290). Opens a load session on a slot and erases the slot. -/
  | configBegin (m : MboxReq)
  /-- CONFIG_CHUNK (R292). Writes image bytes into the session's slot. -/
  | configChunk (m : MboxReq)
  /-- CONFIG_END (R293). Closes the session, verifies the signature and runs the image checks. -/
  | configEnd (m : MboxReq)
  /-- CONFIG_STORE (R295). Makes a VERIFIED slot STORED and optionally names it as an autoload choice. -/
  | configStore (m : MboxReq)
  /-- CONFIG_ACTIVATE (R301). Requests activation of a slot at epoch E. -/
  | configActivate (m : MboxReq)
  /-- SESSION_TIMEOUT (R294). A load session idle for 300 s is closed and its slot erased. -/
  | sessionTimeout
  /-- ACTIVATION_T0 (R302). At T0 the checks rerun, the replaced pens stop and loading begins. -/
  | activationT0
  /-- LOADING_DONE (R304). Loading ends: the digest matches and the activation awaits the ready latch, or loading fails. -/
  | loadingDone (good : Bool)
  /-- COMMIT_ARM (R322). The mailbox command arms the open write group and returns its number. -/
  | commitArm (m : MboxReq)
  /-- COMMIT_DISCARD (R322). The mailbox command empties the open write group. -/
  | commitDiscard (m : MboxReq)
  /-- WG_ARM (R322). A write of 1 to WG.CTRL.ARM arms the open write group. -/
  | wgArm
  /-- WG_DISCARD (R322). A write of 1 to WG.CTRL.DISCARD empties the open write group. -/
  | wgDiscard
  /-- REGISTER_WRITE (R7). A write to a register without a row of its own applies by access class, or is rejected. -/
  | registerWrite (addr : BitVec 26) (bytes : List Byte)
  /-- EPOCH_LO_READ (R17). A read of FRAME.EPOCH_LO latches the high epoch bits. -/
  | epochLoRead (len : Fin 9 := 4)
  /-- TIMERX_LO_READ (R363). A read of TIMERX_LO latches TIMERX_HI. -/
  | timerxLoRead (l : Fin 32) (len : Fin 9 := 4)
  /-- PTPTIME_LO_READ (R369). A read of PTPTIME_LO latches PTPTIME_HI. -/
  | ptptimeLoRead (l : Fin 32) (len : Fin 9 := 4)
  /-- PTPSTEP_LO_WRITE (R369). A write to PTPSTEP_LO adds the signed offset to the PTP clock. -/
  | ptpstepLoWrite (l : Fin 32) (w : Word)
  /-- PROBECTL_WRITE (R277). A write of PROBECTL sets the probe and clears its count, status and trace ring. -/
  | probectlWrite (n : Fin 288) (w : Word)
  /-- AUTOLOAD (R311). On entry to READY, the loader tries the autoload choices in turn. -/
  | autoload
  /-- ENCODER_COUNT (R346). An accepted change on the encoder inputs counts and drives the divider: the levels of A and B it accepts. -/
  | encoderCount (u : Fin 4) (a b : Bool)
  /-- IMAGE_BLOCK (R361). A received IMAGE_BLOCK is checked and assembled into a line, which is placed on a target row. -/
  | imageBlock (l : Fin 32) (msg : List Byte)
  /-- TIME (R363). A received TIME message is stored and, with its TICK flag set, requests a tick. -/
  | time (l : Fin 32) (msg : List Byte)
  /-- STATUS (R365). A received STATUS message replaces STATUSRX. -/
  | status (l : Fin 32) (msg : List Byte)
  /-- CORNER_TURN (R372). An accepted line is written as B-space rows into the target pen. -/
  | cornerTurn (l : Fin 32)
  /-- RECEIVED_FRAME (R367). A 25GBASE-R frame is classified to GVSP ingest, a PTP timestamp, the host ring or discard. -/
  | receivedFrame (l : Fin 32) (bytes desc : List Byte)
  /-- LINK (R383). A lane's link state changes, and LINK fires. -/
  | link (l : Fin 32) (up : Bool)
  /-- TRANSMIT_DESCRIPTOR (R409). A lane host-ring transmit descriptor is sent as a frame. -/
  | transmitDescriptor (l : Fin 32) (desc bytes : List Byte)
  /-- NIC_RING_ENABLE (R409). Enabling a lane host ring captures its base and size and resets head and tail. -/
  | nicRingEnable (l : Fin 32) (tx : Bool) (w : Word)
  /-- IDENTIFY (R396). Returns identity, firmware version and module state. -/
  | identify (m : MboxReq)
  /-- UPDATE_OPEN (R473). Opens, resumes or takes over the update session. -/
  | updateOpen (m : MboxReq)
  /-- UPDATE_CHUNK (R474). Stores one firmware chunk, checking the header and the whole image where due. -/
  | updateChunk (m : MboxReq)
  /-- UPDATE_STATUS (R396). Returns the update session state and chunk bitmap. -/
  | updateStatus (m : MboxReq)
  /-- UPDATE_SCHEDULE (R477). Schedules the firmware swap at an epoch. -/
  | updateSchedule (m : MboxReq)
  /-- UPDATE_ABORT (R476). Closes the update session and discards its chunks. -/
  | updateAbort (m : MboxReq)
  /-- SETTINGS_READ (R486). Returns bytes of the settings record in use. -/
  | settingsRead (m : MboxReq)
  /-- SETTINGS_WRITE (R486). Writes a new settings generation into the other slot. -/
  | settingsWrite (m : MboxReq)
  /-- CAIRN_READ (R453). Returns Cairn records from an index in ascending order. -/
  | cairnRead (m : MboxReq)
  /-- PRESENCE_STATUS (R396). Returns the presence state and window. -/
  | presenceStatus (m : MboxReq)
  /-- LIFECYCLE_SET (R460). Checks and performs a life-cycle transition. -/
  | lifecycleSet (m : MboxReq)
  /-- FOLD_MAP (R396). Returns the relocation table and the role of every physical fold. -/
  | foldMap (m : MboxReq)
  /-- POWER_STATE (R437). Accepts or refuses power-state records, which take effect at the next tick. -/
  | powerState (m : MboxReq)
  /-- PROBE_SETUP (R398). Writes a node's probe registers, with PROBECTL last. -/
  | probeSetup (m : MboxReq)
  /-- PROBE_READ (R395). Returns a node's probe count, status and trace ring. -/
  | probeRead (m : MboxReq)
  /-- DEBUG_READ (R397). Reads I-space, D-space or B-space of a physical fold. -/
  | debugRead (m : MboxReq)
  /-- REG_READ (R397). Reads consecutive BAR0 registers through the mailbox. -/
  | regRead (m : MboxReq)
  /-- REG_WRITE (R397). Writes consecutive BAR0 registers through the mailbox, stopping at the first rejection. -/
  | regWrite (m : MboxReq)
  /-- BAR2_READ (R390). A host BAR2 read is performed as best-effort bank reads. -/
  | bar2Read (addr : BitVec 28) (len : Fin 4097)
  /-- BAR2_WRITE (R390). A host BAR2 write is performed as whole-word or byte-masked writes. -/
  | bar2Write (addr : BitVec 28) (bytes : List Byte)
  /-- RING_ENABLE (R404). Enabling the event ring captures its base and size and resets head, tail and phase. -/
  | ringEnable (w : Word)
  /-- HOLDOFF_EXPIRY (R405). A vector's hold-off ends, and one held MSI-X message is sent. -/
  | holdoffExpiry (v : Fin 64)
  /-- MSIX_UNMASK (R405). Unmasking a vector with its PBA bit set sends one message. -/
  | msixUnmask (v : Fin 64) (w : Word)
  /-- CAIRN_ACK_WRITE (R454). A write of CAIRN.ACK rearms CAIRN_NEAR_WRAP, firing it at once if still past the threshold. -/
  | cairnAckWrite (w : Word)
  /-- CAIRN_WINSEL_WRITE (R449). A write of CAIRN.WINSEL copies the named record into the window. -/
  | cairnWinselWrite (w : Word)
  /-- DMA_ENABLE (R407). Enabling a DMA channel captures its ring; disabling it finishes the descriptor in progress and stops. -/
  | dmaEnable (c : Fin 8) (w : Word)
  /-- DMA_RESUME (R408). A write of CTRL.RESUME clears HALTED and continues from HEAD. -/
  | dmaResume (c : Fin 8) (w : Word)
  /-- DMA_H2P (R407). A DMA descriptor moves host memory to pasture. -/
  | dmaH2p (c : Fin 8) (desc host : List Byte)
  /-- DMA_P2H (R407). A DMA descriptor moves pasture to host memory. -/
  | dmaP2h (c : Fin 8) (desc : List Byte) (taken : Nat)
  /-- DMA_P2P (R407). A DMA descriptor copies pasture to pasture. -/
  | dmaP2p (c : Fin 8) (desc : List Byte)
  /-- DMA_ADD_P (R407). A DMA descriptor issues a posted add. -/
  | dmaAddP (c : Fin 8) (desc : List Byte)
  /-- DMA_ADD_R (R407). A DMA descriptor issues a returning add and writes the old value to the host. -/
  | dmaAddR (c : Fin 8) (desc : List Byte) (taken : Nat)
  /-- DMA_SWAP_P (R407). A DMA descriptor issues a posted swap. -/
  | dmaSwapP (c : Fin 8) (desc : List Byte)
  /-- DMA_SWAP_R (R407). A DMA descriptor issues a returning swap and writes the old value to the host. -/
  | dmaSwapR (c : Fin 8) (desc : List Byte) (taken : Nat)
  /-- DMA_PLANE_RD (R407). A DMA descriptor reads B-space planes of a fold to the host. -/
  | dmaPlaneRd (c : Fin 8) (desc : List Byte) (taken : Nat)
  /-- DMA_COMPLETION (R407). A DMA descriptor completes in ring order, writing STATUS, advancing HEAD or halting on error. -/
  | dmaCompletion (c : Fin 8)
  /-- FUNCTION_LEVEL_RESET (R387). Resets the host-facing blocks only. -/
  | functionLevelReset
  /-- USB4_LINK_DOWN (R387). Loss of the USB4 link resets the host-facing blocks. -/
  | usb4LinkDown
  /-- D3HOT_ENTRY (R387). Channels and rings finish their current descriptor and stop, and MSI-X is suppressed. -/
  | d3hotEntry
  /-- D0_RETURN (R387). Channels and rings continue from HEAD. -/
  | d0Return
  /-- FEED_QUALIFY (R427). A feed stays in range for 20 ms and qualifies, starting a POWER_ON start-up when no feed was qualified. -/
  | feedQualify (b : Bool) (va vb : Half)
  /-- FEED_LOSS (R428). A qualified feed is lost; the controller switches to the other feed or enters HOLD. -/
  | feedLoss (b ov : Bool) (va vb ns : Half)
  /-- VIN_A_STABLE (R428). VIN_A has been in range for 500 ms while on VIN_B, and the controller switches back to VIN_A. -/
  | vinAStable (ns : Half)
  /-- HOLDUP_CHARGED (R417). The hold-up store reaches 3 ms at 120 W, and HOLDUP becomes 1. -/
  | holdupCharged
  /-- THERMAL_SAMPLE (R438). Sensors are read every 10 µs, and TMAX moves the thermal level. -/
  | thermalSample (temps : List (Fin 273 × Half))
  /-- SHED_CLEAR (R439). TMAX has stayed below 143 °C for 1 s, and SHED falls to WARN. -/
  | shedClear
  /-- RESET_N (R351). A low of 100 ns or more on RESET_N resets the module, and pins go safe. -/
  | resetN
  /-- WATCHDOG (R419). An unserved firmware watchdog resets the module after 2 s. -/
  | watchdog
  /-- LOADER_RETRY (R412). Every 10 s, the ROM tries both loader copies again. -/
  | loaderRetry (c1 c2 : Byte)
  /-- LOADER (R413). The resident loader completes swaps, verifies the firmware and starts it or falls back. -/
  | loader (c1 c2 : Byte) (bad : Option (Fin 4096))
  /-- FIRMWARE (R414). The firmware reads settings, starts the clocks, applies the pin-safe map, starts the ports and enters STANDBY. -/
  | firmware (refclk flashOk : Bool) (bad : Option (Fin 4096))
  /-- SELFTEST (R416). The self-test tests and repairs the banks, bridges, folds, engines and lanes, then enters READY with a tick of epoch 0. -/
  | selftest (r : SelfTest)
  /-- REFCLK_LOST (R352). REFCLK_IN shows no edge for 2 µs, and the clock changes to the internal oscillator. -/
  | refclkLost
  /-- FOLD_ISOLATION (R442). The hub decides on a failed fold: it is isolated, its pen stops, and substitution starts or the member becomes LOST. -/
  | foldIsolation (pf : Fin 272)
  /-- SPARE_SUBSTITUTED (R443). Substitution completes: the logical fold maps to the spare, and SUBST patches are applied. -/
  | spareSubstituted (us : Word) (fate : SpareFate)
  /-- PRESENCE_ON (R455). A Crook key or PRESENCE_N hold completes 2 s, and presence is asserted. -/
  | presenceOn (key : Bool)
  /-- PRESENCE_OFF (R456). The presence window runs out, and presence ends. -/
  | presenceOff
  /-- TAMPER (R467). The tamper condition appears: the secure pasture is wiped, a tamper fuse may be burned and a pinned record is written. -/
  | tamper (mesh : Bool) (bad : Option (Fin 4096))
  /-- UPDATE_SWAP (R478). At the scheduled epoch, the module stops in order and resets to swap the firmware. -/
  | updateSwap
  /-- HEALTH_CONFIRMED (R481). The health window closes with both checks passed, and the new firmware confirms and advances the fuse counter. -/
  | healthConfirmed
  /-- FALLBACK (R482). Health fails or times out, and the module resets to swap back to the old firmware. -/
  | fallback
  /-- SYNC_IN_LOCK (R349). The SYNC_IN receiver gains or loses alignment to the 8b/10b characters of the chain, and SYNCSTAT.LOCK changes. -/
  | syncInLock (lock : Bool)
  /-- PRESENCE_HOLD (R455). A field appears at or leaves the shepherd mark, or PRESENCE_N changes level after its debounce, so hold
  timing starts or stops or a non-matching field is counted in REJECT. -/
  | presenceHold (ev : HoldEvent)
  /-- USB4_LINK_UP (R384). The J4 link trains at a supported rate and the PCIe tunnel is established, or training fails and the Billboard
  device enumerates. -/
  | usb4LinkUp (rate : Fin 4)
  /-- LINK_POWER_STATE_ENTRY (R385). The USB4 link partner requests entry to CL0s, CL1 or CL2, and the router refuses it in RUN or SHED
  and accepts it in every other state. -/
  | linkPowerStateEntry (st : Fin 4)
  /-- UNKNOWN_CMD (R395). A mailbox command whose CODE is not listed arrives and returns UNKNOWN_CMD, or a service-port transfer of the
  wrong length is answered BAD_ARG with CODE 0. -/
  | unknownCmd (m : MboxReq)
  /-- MALFORMED_MESSAGE (R360). A received Filop Link message fails a check of R360 (coding, length, CRC, a reserved or ACTUATE type, or
  reserved flags) and is discarded and counted, firing DROP where the table says. -/
  | malformedMessage (l : Fin 32) (msg : List Byte) (coded : Bool)
  /-- PIN_INPUT (R334). The level at a GP pin changes; after two ACLK samples it appears on the segments the pin drives and in IOBANK.STATUS.IN. -/
  | pinInput (p : Fin 192) (level : Bool)
  /-- ENGINE_WAKE (R273). A word engine leaving RETAIN or OFF reaches ON at frame cycle 1,000 after the tick, following the fold timing,
  and its hurdle opens. -/
  | engineWake (e : Fin 32)
  deriving DecidableEq, Repr

end Sys2Proof
end

