-- ==== Sys2Proof/Machine/HostTypes.lean ====
section
/-! DEFINITION. What a command sends out of the block, and the state of the event controller and the Cairn. -/

namespace Sys2Proof.Machine

/-- What the block sends to the world outside it in one command. -/
inductive Output
  /-- An MSI-X message of a vector (R405). -/
  | msi (vector : Nat)
  /-- Bytes written to host memory (R403, R399, R407, R409). -/
  | hostWrite (addr : Nat) (bytes : List Byte)
  /-- A packet injected into the droveway by a node (R248 to R251). -/
  | packet (p : Pkt)
  /-- A match pulse of a node's probe to the probe multiplexers (R277). -/
  | probePulse (node : Nat)
  /-- What a host read of BAR0 or BAR2 returns (R6, R390). -/
  | readData (bytes : List Byte)
  /-- A response on the service port: header and payload (R401). -/
  | service (header payload : List Byte)
  /-- A message or a frame on a sensor lane (R357, R364, R377, R409). -/
  | lane (l : Nat) (bytes : List Byte)
  /-- A character or an EPOCH symbol on SYNC_OUT (R349, R350). -/
  | sync (chars : List Byte)
  deriving DecidableEq, Repr

/-- The event ring as captured when it was enabled (R404), and what each vector holds back (R405). -/
structure Events where
  base : Nat := 0
  size : Nat := 16
  phase : Bool := true
  /-- When each vector last sent a message. -/
  sent : Store (Option Nat) := []
  /-- The vectors whose signal is held by the hold-off. -/
  heldOff : BitVec 64 := 0
  /-- The last cycle in which the hardware set a bit that a write of 1 clears, and the bits set in it, by register
  address (R11). -/
  setAt : Nat := 0
  setNow : Store Word := []
  /-- The records of that cycle that found their register holding one (R132). -/
  recNow : Store Word := []
  /-- The sources that have fired in a cycle whose records are still to be written, with their DETAIL (R402). -/
  batch : Option (List (Nat × Nat)) := none
  deriving DecidableEq, Repr

/-- A Cairn record (R448 to R451): its index, whether it is pinned, and its 64 bytes. -/
structure CairnRec where
  index : Nat
  pinned : Bool
  bytes : List Byte
  deriving DecidableEq, Repr

/-- The Cairn. -/
structure Cairn where
  recs : List CairnRec := []
  next : Nat := 0
  /-- CAIRN_NEAR_WRAP has fired and waits for a write of CAIRN.ACK (R454). -/
  disarmed : Bool := false
  deriving DecidableEq, Repr

/-- A ring as captured when it was enabled: host address and number of entries (R404, R407, R409). -/
structure Ring where
  on : Bool := false
  base : Nat := 0
  size : Nat := 16
  deriving DecidableEq, Repr

/-- A DMA request that waits for its response: its tag, the word of its descriptor, and whether a ROUTE_EPOCH was reissued (R406, R408). -/
structure DmaReq where
  tag : Nat
  word : Nat
  again : Bool := false
  deriving DecidableEq, Repr

/-- A DMA descriptor in progress: its ERR so far, its IRQ bit, the fields its requests are made from, the words it has issued of those it
has, the host's bytes and how many the host takes, what is outstanding, and whether a posted request was reissued (R406 to R408). -/
structure DmaRun where
  err : Nat
  irq : Bool
  op : Nat := 0
  urg : Nat := 0
  haddr : Nat := 0
  paddr : Nat := 0
  paddr2 : Nat := 0
  operand : Dword := 0
  words : Nat := 0
  sent : Nat := 0
  host : List Byte := []
  taken : Nat := 0
  reqs : List DmaReq := []
  again : Bool := false
  deriving DecidableEq, Repr

/-- One DMA channel: its ring and the descriptors started and not complete, oldest first (R407). -/
structure Dma where
  ring : Ring := {}
  runs : List DmaRun := []
  deriving DecidableEq, Repr

/-- The rings of one lane (R409). -/
structure Nic where
  rx : Ring := {}
  tx : Ring := {}
  deriving DecidableEq, Repr

/-- The host mailbox as captured at the doorbell (R399): header, addresses and size. -/
structure Mbox where
  busy : Bool := false
  hdr : List Byte := []
  rpay : Nat := 0
  rmax : Nat := 0
  /-- A function-level reset or a link loss came while the command ran: its response payload is discarded (R387). -/
  lostPayload : Bool := false
  /-- When it was accepted, and whether a service-port command accepted before it waits (R394). -/
  since : Nat := 0
  after : Bool := false
  deriving DecidableEq, Repr

/-- The PCIe configuration space of the endpoint function (R386; log entry 111): identity, BAR sizes, capabilities, and the sizes the host may
set. -/
structure PcieFn where
  vendor : BitVec 16 := 0x1BE7
  device : BitVec 16 := 0x0256
  revision : BitVec 8 := 0xB1
  classCode : BitVec 24 := 0x120000
  subVendor : BitVec 16 := 0x1BE7
  subsystem : BitVec 16 := 0x0003
  /-- BAR0: 64-bit, non-prefetchable, 64 MiB; BAR2: 64-bit, prefetchable, 256 MiB; no other BAR and no ROM. -/
  bar0 : Nat := 0x4000000
  bar2 : Nat := 0x10000000
  bar2Prefetch : Bool := true
  expansionRom : Bool := false
  interruptPin : BitVec 8 := 0
  /-- Power Management with No_Soft_Reset, MSI-X (vectors, table and PBA in BAR0), Advanced Error Reporting, FLR. -/
  noSoftReset : Bool := true
  msixVectors : Nat := 64
  msixTable : Nat := 0x18000
  msixPba : Nat := 0x19000
  aer : Bool := true
  flr : Bool := true
  /-- MSI, SR-IOV, ATS and PASID are not supported. -/
  msi : Bool := false
  sriov : Bool := false
  ats : Bool := false
  pasid : Bool := false
  /-- Bytes of payload, bytes of a read request accepted, and tag bits as requester. -/
  maxPayload : Nat := 256
  maxReadReq : Nat := 4096
  tagBits : Nat := 10
  deriving DecidableEq, Repr

/-- The USB 2.0 device at J5 (R400; log entry 111): identity, its one interface, its endpoints and packet size. It enumerates without either
supply. -/
structure UsbDevice where
  vendor : BitVec 16 := 0x1BE7
  product : BitVec 16 := 0x0257
  highSpeed : Bool := true
  interfaceClass : BitVec 8 := 0xFF
  bulkOut : BitVec 8 := 0x01
  bulkIn : BitVec 8 := 0x81
  packet : Nat := 512
  busPowered : Bool := true
  deriving DecidableEq, Repr

/-- The host-facing blocks beside their registers. -/
structure HostIf where
  dma : Store Dma := []
  nic : Store Nic := []
  mbox : Mbox := {}
  /-- A service-port command that was accepted and waits for a command of the host accepted before it (R394). -/
  svcHeld : Option MboxReq := none
  /-- The response that a read of the service port's IN endpoint returns: until the next command is accepted (R401). -/
  svcResp : Option (List Byte × List Byte) := none
  pcie : PcieFn := {}
  usb : UsbDevice := {}
  deriving DecidableEq, Repr

end Sys2Proof.Machine
end

