-- ==== Sys2Proof/Machine/PastTypes.lean ====
section
/-! DEFINITION. The state of the pasture banks, the droveway and its hurdles (chapters 07 and 08). -/

namespace Sys2Proof.Machine

/-- What the stored bits of a pasture word are worth to its SECDED code (R227, R228): a single-bit error is
corrected on a read, so the word's value is the corrected one; a double-bit error is not. -/
inductive Ecc
  | good | single | double
  deriving DecidableEq, Repr

/-- A request waiting at a bank port: the packet and the number of the cycle it arrived in (R217, R219). It is
also an open entry of the hurdle's tag table (R269). -/
structure Waiting where
  pkt : Pkt
  cycle : Nat
  /-- When it arrived, in ACLK cycles since t0. -/
  since : Nat
  /-- The words of it that the port has accessed, and what a read has found in them (R216). -/
  done : Nat := 0
  acc : List Dword := []
  deriving DecidableEq, Repr

/-- One pasture bank (chapter 07). -/
structure Bank where
  power : Power := .off
  recorded : Power := .on
  hurdle : Hurdle := .closed
  failed : Bool := false
  /-- The columns the self-test replaced, by sub-array (R231). -/
  soft : List (Nat × Nat) := []
  waiting : List Waiting := []
  arrivals : Nat := 0
  /-- The port is in the second cycle of a two-cycle access (R216). -/
  busy : Bool := false
  /-- Corrected words waiting for their write-back (R227). -/
  writeBack : List Nat := []
  /-- The holder record, least recently filled first: line and engine mask (R262). -/
  holders : List (Nat × BitVec 32) := []
  /-- The longest wait of a best-effort request in this frame (BANK[b].WAITMAX). -/
  maxWait : Nat := 0
  /-- The frame cycle a waking bank opens its hurdle in (R235). -/
  opensAt : Nat := 0
  deriving DecidableEq, Repr

/-- A packet in an output queue of a router: the input it came from, and when its head came, in NCLK cycles since t0. -/
structure Queued where
  pkt : Pkt
  inp : Nat
  since : Nat
  /-- The flits of it that have come, and those that have left by the output (R246, R259). -/
  got : Nat := 1
  sent : Nat := 0
  /-- Since when its next flit heads its input buffer (R258), and how often its urgency has risen here (R260). -/
  headAt : Option Nat := none
  raised : Nat := 0
  deriving DecidableEq, Repr

/-- A held tag (R253): the request that holds it. -/
structure HeldTag where
  pkt : Pkt
  /-- The plane move it served was cancelled (R165); the line it fills was invalidated meanwhile (R212). -/
  cancelled : Bool := false
  /-- The dispatch that ran in the engine when the line was invalidated: its elements may wait for the fill (R212). -/
  waiter : Option Nat := none
  /-- Its unit presents the request at its node, and the router has not taken it in yet. -/
  fresh : Bool := false
  deriving DecidableEq, Repr

/-- The droveway (chapter 08). -/
structure Droveway where
  /-- Output queues by `node * 64 + network * 8 + port`, and the input after the last one granted (R259). -/
  queues : Store (List Queued) := []
  rot : Store Nat := []
  /-- The NCLK cycle after the last one in which each output carried a flit (R245). -/
  used : Store Nat := []
  /-- The tags held (R253). -/
  tags : Store (Option HeldTag) := []
  /-- The table epoch, the table set in force, the bridges lost, and the order they were lost in, the last first (R263,
  R275). -/
  tep : Bool := false
  set : Nat := 0
  /-- The route and slot tables of the TEP in force and of the one before (R263, R264). -/
  tabs : TabSet := ⟨0, [], []⟩
  oldTabs : TabSet := ⟨0, [], []⟩
  lost : BitVec 8 := 0
  order : List Nat := []
  /-- The drain window is open (R264). -/
  drain : Bool := false
  /-- What an opening domain took from its EPOCH notice, by node: FEP, TEP and the low epoch bits (R266). -/
  notices : Store (Option (Bool × Bool × BitVec 16)) := []
  /-- ISOLATED_TARGET and PROBE_TRIGGER have fired in this frame (R272, R277). -/
  isoFired : Bool := false
  probeFired : Bool := false
  deriving DecidableEq, Repr

end Sys2Proof.Machine
end

