-- ==== Sys2Proof/Machine/EngTypes.lean ====
section
/-! DEFINITION. The state of the word engines (chapter 06). -/

namespace Sys2Proof.Machine

/-- A line of an engine cache: the number of the pasture line, and its eight words (R210). -/
structure CacheLine where
  line : Nat
  words : List Dword
  deriving DecidableEq, Repr

/-- One word engine: the queue holds the descriptor that runs at its head (R182); the cache holds the line used last at
its end (R210). -/
structure Engine where
  power : Power := .off
  /-- The self-test holds the engine OFF (R416). -/
  failed : Bool := false
  /-- The recorded state (R173). -/
  recorded : Power := .on
  hurdle : Hurdle := .closed
  queue : List Dispatch := []
  cache : List CacheLine := []
  /-- Lines whose fill arrived after their invalidation: they serve the elements that waited for them (R212). -/
  served : List CacheLine := []
  /-- The frame cycle a waking engine opens its hurdle in (R273). -/
  opensAt : Nat := 0
  /-- TRAP and ERROR have fired in this frame (R201). -/
  trapFired : Bool := false
  errFired : Bool := false
  deriving DecidableEq, Repr

/-- A posting on its way to a fold: fold, MR, dispatch, epoch bit, value (R184). -/
structure Post where
  engine : Nat
  pf : Nat
  mr : Nat
  id : Nat
  fep : Bool
  value : Dword
  deriving DecidableEq, Repr

/-- The word engines, their local memories and what is on its way from them. -/
structure Engs where
  units : Store Engine := []
  /-- Local memory byte `65536 * e + offset` (R172), and the ECC standing of word `8192 * e + offset / 8`. -/
  mem : List Host.Cell := []
  ecc : Store Ecc := []
  posts : List Post := []
  deriving DecidableEq, Repr

end Sys2Proof.Machine
end

