-- ==== Sys2Proof/Machine/LaneTypes.lean ====
section
/-! DEFINITION. The state of the egress channels, the sensor lanes and the I/O ring (chapters 10 and 11). -/

namespace Sys2Proof.Machine

/-- A latched egress command (R36, R343, R345, R377): the frames left to its emission frame, its emission cycle, the ACTION, the
command words, LATERUN and the epoch of the latch, and a pin group's PULSE and WIDTH as they stood at the latch. -/
structure EgCmd where
  left : Nat
  cycle : Nat
  action : Nat
  words : List Dword
  run : Nat
  epoch : BitVec 48
  pulse : Bool := false
  width : Nat := 0
  deriving DecidableEq, Repr

/-- An egress channel: its queue, oldest first, the last on-time command since activation (R36), the consecutive late frames
and whether it has latched in this frame. -/
structure Egress where
  queue : List EgCmd := []
  held : Option (List Dword) := none
  run : Nat := 0
  latched : Bool := false
  deriving DecidableEq, Repr

/-- A line being received on Filop Link (R361). -/
structure OpenLine where
  seq : Nat
  idx : Nat
  bytes : List Byte
  deriving DecidableEq, Repr

/-- An accepted line in a line buffer: its bytes, target row and plane buffer (R371, R372). -/
structure LineBuf where
  bytes : List Byte
  row : Nat
  buf : Nat
  deriving DecidableEq, Repr

/-- A GVSP block being received (R368): its block ID, whether it is taken, its rows, the next packet ID, the bytes that have
passed of it, those of the row in progress, whether that row lacks any, whether a tick has discarded it, and whether it found no
free line buffer (R373); and how long its last data packet was. -/
structure Gvsp where
  block : Nat
  taken : Bool
  rows : Nat
  next : Nat
  pos : Nat := 0
  bytes : List Byte := []
  torn : Bool := false
  skip : Bool := false
  full : Bool := false
  prev : Option Nat := none
  deriving DecidableEq, Repr

/-- One sensor lane. -/
structure Lane where
  /-- Ingest units accepted in this frame (R128, R374). -/
  ingCount : Half := 0
  line : Option OpenLine := none
  /-- Row and sequence number of the last line placed in this frame (R362). -/
  pos : Option (Nat × Nat) := none
  bufs : List LineBuf := []
  gvsp : Option Gvsp := none
  /-- The bytes of a data packet of the GVSP stream that another one followed in its block; 0 before the first (R368; log entry 127). -/
  gvspLen : Nat := 0
  /-- The last TIME payload, and what reads of TIMERX_LO and PTPTIME_LO latched (R363, R369). -/
  timeRx : Dword := 0
  timeHi : Word := 0
  ptpHi : Word := 0
  /-- The PTP clock in units of 2^-32 ns as it stood at a time since t0 (R369). -/
  ptp : Nat := 0
  ptpAt : Nat := 0
  /-- DROP and LINK have fired in this frame (R383). -/
  dropFired : Bool := false
  linkFired : Bool := false
  /-- The self-test failed the lane: its link never reports up (R416). -/
  failed : Bool := false
  /-- Its ingest records, its configuration, the configuration of some of its channels are being loaded (R309, R310, R375). -/
  ingLoad : Bool := false
  loading : Bool := false
  chLoad : BitVec 4 := 0
  eg : Store Egress := []
  deriving DecidableEq, Repr

/-- An encoder unit: the levels of A and B it counted last, the accepted levels that have not been counted yet, oldest first, how
many cycles each input has differed from the level accepted last, the direction of the last count, the divider's remainder and debt
(R346, R347). -/
structure Enc where
  a : Bool := false
  b : Bool := false
  seen : List (Bool × Bool) := []
  na : Nat := 0
  nb : Nat := 0
  back : Bool := false
  rem : Nat := 0
  debt : Nat := 0
  deriving DecidableEq, Repr

/-- The path from a probe multiplexer to its pin: what the source was in the last 25 ACLK cycles, newest in bit 0, and the cycles
that a stretched pulse still lasts (R354). -/
structure Prb where
  line : BitVec 25 := 0
  left : Nat := 0
  deriving DecidableEq, Repr

/-- The I/O ring. -/
structure Edge where
  /-- The levels the outside has put on GP pins, the pins it has put one on, and the two flip-flops that sample each pin
  (R334). -/
  pad : BitVec 192 := 0
  outside : BitVec 192 := 0
  samp : BitVec 192 := 0
  inp : BitVec 192 := 0
  /-- The cells' flip-flops (R328). -/
  ff : BitVec 4096 := 0
  /-- The energised pins of pin groups, those energised from the next cycle on, and when the PULSE timers of pins expire (R342 to
  R344). -/
  on : BitVec 192 := 0
  onNext : BitVec 192 := 0
  timers : Store (Option Nat) := []
  /-- The special sources that are 1 for one ACLK cycle: by code (R330). -/
  strobe : BitVec 48 := 0
  /-- The regions being loaded, and the rails that carry 0 meanwhile (R310, R339). -/
  loading : BitVec 16 := 0
  railOff : BitVec 32 := 0
  /-- The segments that were free when a driver was enabled on them, and when that was: those of this cycle count (R300). -/
  enables : List (Nat × Nat) := []
  /-- The hub has applied the pin-safe map; the module is halting or has halted (R338). -/
  mapped : Bool := false
  halted : Bool := false
  groups : Store Egress := []
  encs : Store Enc := []
  /-- The pin groups being loaded (R309, R310). -/
  grpLoad : BitVec 16 := 0
  /-- The TICK_IN pin after its filter, the level of the tick net, and its rising edges that have requested no tick yet (R330,
  R348). -/
  tickIn : Bool := false
  net : Bool := false
  netEdges : Nat := 0
  /-- What the probe multiplexers see in this cycle: MARK values and the nodes whose probes matched; and their paths (R353, R354). -/
  marks : List Half := []
  hits : List Nat := []
  prb : Store Prb := []
  /-- The command words a channel found at the end of its latch cycle - 4, with their ECC standing: pin groups from 0, channel `k` of
  lane `l` at `16 + 4l + k` (R340, R378). -/
  samples : Store (Option (List (Dword × Ecc))) := []
  /-- SYNC_OUT's driver is on (R349, R414). -/
  syncOn : Bool := false
  deriving DecidableEq, Repr

end Sys2Proof.Machine
end

