-- ==== Sys2Proof/Machine/HubTypes.lean ====
section
/-! DEFINITION. The state of the hub: supplies, substitution, presence, life cycle, firmware, settings (chapters 13 to
15). -/

namespace Sys2Proof.Machine

/-- The states of the supply controller (R428). -/
inductive Supply
  | onA | onB | hold | off
  deriving DecidableEq, Repr

/-- The fuses (R412, R458, R459, R467, R471): life cycle as IDENTIFY codes it, return fuses, tamper fuses, version
counter. -/
structure Fuses where
  lc : Nat := 1
  returns : Nat := 0
  tampers : Nat := 0
  ver : Nat := 0
  deriving DecidableEq, Repr

/-- A settings record (R487): its bytes but for CFGKEY, and the stored configuration key with the tamper count it is
wrapped under (R464). -/
structure SetRec where
  bytes : Store Byte := []
  key : Option (List Byte × Nat) := none
  deriving DecidableEq, Repr

/-- A settings slot of the flash store (R484): erased, not valid, or valid with its VERSION and GENERATION. -/
inductive SetSlot
  | erased
  | bad
  | good (version gen : Nat) (r : SetRec)
  deriving DecidableEq, Repr

/-- The settings in use (R485). -/
structure Settings where
  slots : Vector SetSlot 2 := Vector.replicate 2 .erased
  slot : Fin 2 := 0
  version : Nat := 0
  gen : Nat := 0
  unreadable : Bool := false
  migrated : Bool := false
  cur : SetRec := {}
  deriving DecidableEq, Repr

/-- The update states of UPD.STATUS. -/
inductive UpdSt
  | idle | receiving | verified | scheduled | confirming
  deriving DecidableEq, Repr

/-- The update session (R472): owner port, digest, LENGTH, VERSION, and the chunks held. -/
structure UpdSession where
  svc : Bool
  digest : List Byte
  length : Nat
  version : Nat
  chunks : Store (List Byte) := []
  deriving DecidableEq, Repr

/-- The firmware image that a module is delivered with: one of the 7.x line, all else in it free (R1, R469, R514; log entry 5). -/
def factoryImage : List Byte := ((List.range 15).map fun i => Config.factoryFw.getD i 0) ++ [7] ++ Config.factoryFw.drop 16

/-- Firmware, its update and its health (R413, R469 to R483). -/
structure Firmware where
  active : List Byte := factoryImage
  staging : List Byte := []
  st : UpdSt := .idle
  session : Option UpdSession := none
  epoch : Nat := 0
  /-- A swap the loader owes, forward or back, with the cause of a fallback (R478, R482). -/
  swapDue : Bool := false
  backDue : Option Nat := none
  /-- A health fallback has happened; cause, refused and restored VERSION wait for STANDBY (R483). -/
  fellBack : Option (Nat × Nat × Nat) := none
  /-- When the module entered READY in this start-up (R480). -/
  readyAt : Option Nat := none
  deriving DecidableEq, Repr

/-- Presence (R455, R456): the source that asserted it, the time it runs out, whether the key is at the mark and PRESENCE_N is
low, and since when each hold is timed. -/
structure Presence where
  source : Nat := 0
  ends : Nat := 0
  keyHeld : Bool := false
  pinHeld : Bool := false
  keySince : Option Nat := none
  pinSince : Option Nat := none
  deriving DecidableEq, Repr

/-- A substitution in progress (R443): the failed fold, its logical fold, the spare, the time of the failing check. -/
structure Subst where
  pf : Nat
  lf : Nat
  spare : Nat
  since : Nat
  /-- How long after its start steps 2, 3 and 4 end (R443). -/
  ends : Vector Nat 3 := Vector.replicate 3 0
  deriving DecidableEq, Repr

/-- A wipe of the secure pasture (R239): when it ends, and the row that fails the second read-back. -/
structure Wipe where
  till : Nat
  bad : Option Nat
  deriving DecidableEq, Repr

/-- The hub. -/
structure Hub where
  fuses : Fuses := {}
  settings : Settings := {}
  fw : Firmware := {}
  pres : Presence := {}
  supply : Supply := .off
  lid : Bool := false
  mesh : Bool := false
  /-- The configuration key in the secure pasture (R237, R464). -/
  cfgKey : Option (List Byte) := none
  /-- The wipe in progress (R239, R240). -/
  wipe : Option Wipe := none
  /-- Every running substitution and the folds that wait (R445). -/
  subst : Option Subst := none
  waiting : List (Nat × Nat) := []
  /-- The ROM found no loader copy that verifies (R412). -/
  stuck : Bool := false
  /-- The module's recorded state (R285, R435): RUN asked for; and the records accepted for the next tick (R437). -/
  wantRun : Bool := false
  nextRun : Option Bool := none
  /-- The module record accepted last since T0 of the load that runs (R304). -/
  loadRun : Option Bool := none
  nextPower : List PowRec := []
  /-- Thermal shedding applies from the next tick on, or ends there (R440). -/
  shedding : Bool := false
  /-- Good frames: TICK_MISSED fired in the closing frame (R480). -/
  missedNow : Bool := false
  /-- The configuration in force was loaded encrypted (R397). -/
  encrypted : Bool := false
  /-- SERIAL and MACBASE as the settings read at the last start-up gave them (R487). -/
  serial : List Byte := Config.serial
  /-- AUTOLOAD1 and AUTOLOAD2 as the settings read at this start-up gave them (R487). -/
  autoNames : List Nat := [0xFF, 0xFF]
  deriving DecidableEq, Repr

end Sys2Proof.Machine
end

