-- ==== Sys2Proof/Machine/State.lean ====
section
/-! DEFINITION. The state of the block: plain data, and its value after reset. -/

namespace Sys2Proof.Machine

/-- Why a step stops with a fault. No command of this block faults: every error the spec names is an effect on the
state (an event, a status, a counter), so nothing raises this constructor, and it is safe. -/
inductive Fault
  | none
  deriving DecidableEq, Repr

/-- Why a step is refused. -/
inductive Refusal
  /-- The command has no meaning in this model yet; raised by Dispatch alone, safe. -/
  | notModelled (mnemonic : String)
  deriving DecidableEq, Repr

/-- The array: folds, pens, the placement of logical folds, and the spaces of R91. -/
structure Arr where
  folds : Store Fold := []
  pens : List Pen := []
  /-- The physical fold of each logical fold, plus one; 0 where none is in force (R319). -/
  place : Store Nat := []
  /-- The bank of each logical fold, plus one (R215). -/
  home : Store Nat := []
  /-- B-space: plane `2048 * PF + address`, and the rows whose stored parity bit disagrees (R74). -/
  planes : Store Plane := []
  badRows : Store (BitVec 64) := []
  /-- I-space word `16384 * PF + address`, D-space word `4096 * PF + address`. -/
  ispace : Store (BitVec 14) := []
  dspace : Store Half := []
  /-- Whether checkpoint buffer 1 is the valid one, by logical fold (R44). -/
  buf1 : Store Bool := []
  /-- Word-engine dispatches made so far (R140). -/
  dispatches : Nat := 0
  /-- Descriptors sent and not yet at their engine. -/
  flight : List Dispatch := []
  /-- Folds a check has found failed and the hub has not decided on yet (R75 to R79, R442). -/
  failed : List Nat := []
  deriving DecidableEq, Repr

/-- The whole block. -/
structure State where
  pending : List Instr := []
  out : List Output := []
  freeCount : Nat := 0
  mode : ModState := .starting
  phase : Phase := .t0
  /-- The version of the firmware that runs (R396, R469). -/
  fwVer : Word := 0
  regs : Store Word := []
  frame : Frame := {}
  arr : Arr := {}
  eng : Engs := {}
  ldr : Loader := {}
  mem : List Host.Cell := []
  ecc : Store Ecc := []
  banks : Store Bank := []
  dw : Droveway := {}
  lanes : Store Lane := []
  evt : Events := {}
  host : HostIf := {}
  cairn : Cairn := {}
  edge : Edge := {}
  hub : Hub := {}
  deriving DecidableEq, Repr

/-- The block right after reset, before t0 of the start-up (R410). -/
def State.reset : State := {}

end Sys2Proof.Machine
end

