-- ==== Sys2Proof/Machine/Store.lean ====
section
/-! DEFINITION. Reading and writing a sparse store. Every operation keeps the canonical form. -/

namespace Sys2Proof

/-- The value under a key, the default where nothing is listed. -/
def Store.get {α : Type} (m : Store α) (d : α) (k : Nat) : α :=
  match m with
  | [] => d
  | p :: t => if p.1 = k then p.2 else Store.get t d k

/-- Every entry but those under a key. -/
def Store.erase {α : Type} (m : Store α) (k : Nat) : Store α :=
  match m with
  | [] => []
  | p :: t => if p.1 = k then Store.erase t k else p :: Store.erase t k

/-- Put a value under a key, at the place the order of keys gives it. -/
def Store.insert {α : Type} (m : Store α) (k : Nat) (v : α) : Store α :=
  match m with
  | [] => [(k, v)]
  | p :: t =>
    if k < p.1 then (k, v) :: p :: t
    else if p.1 = k then (k, v) :: t
    else p :: Store.insert t k v

/-- Write a value under a key: the default value removes the entry. -/
def Store.set {α : Type} [DecidableEq α] (m : Store α) (d : α) (k : Nat) (v : α) : Store α :=
  if v = d then Store.erase m k else Store.insert m k v

/-- Whether every key is above a bound and the keys rise. -/
def Store.rising {α : Type} (m : Store α) (lo : Option Nat) : Bool :=
  match m with
  | [] => true
  | p :: t => (match lo with | none => true | some b => b < p.1) && Store.rising t (some p.1)

/-- The canonical form: keys strictly rising and no entry equal to the default. -/
def Store.wf {α : Type} [DecidableEq α] (m : Store α) (d : α) : Bool :=
  Store.rising m none && m.all fun p => p.2 ≠ d

/-- Drop the entries whose key lies in `lo` to `hi - 1`. -/
def Store.dropRange {α : Type} (m : Store α) (lo hi : Nat) : Store α :=
  m.filter fun p => !(lo ≤ p.1 && p.1 < hi)

/-- The entries of consecutive values from a key on: those equal to the default are not listed. -/
def Store.listed {α : Type} [DecidableEq α] (d : α) (k : Nat) : List α → Store α
  | [] => []
  | v :: t => if v = d then Store.listed d (k + 1) t else (k, v) :: Store.listed d (k + 1) t

/-- Replace the entries whose key lies in `lo` to `hi - 1` by others, whose keys lie there and rise. -/
def Store.splice {α : Type} (m : Store α) (lo hi : Nat) (new : Store α) : Store α :=
  m.filter (fun p => p.1 < lo) ++ new ++ m.filter (fun p => hi ≤ p.1)

end Sys2Proof
end

