-- ==== Sys2Proof/Machine/Ops.lean ====
section
/-! DEFINITION. The shared operations over the state: registers, free values, events, the Cairn, pasture bytes. -/

namespace Sys2Proof.Machine

/-! ### Registers -/

/-- The stored bits of a register. -/
def State.reg (s : State) (n : RegName) (i j : Nat := 0) : Word :=
  Store.get s.regs n.row.rstVal (Reg.addr ⟨n, i, j⟩)

/-- Store the bits of a register. -/
def State.setReg (s : State) (n : RegName) (i j : Nat) (v : Word) : State :=
  { s with regs := Store.set s.regs n.row.rstVal (Reg.addr ⟨n, i, j⟩) v }

/-- A field of a register. -/
def State.rf (s : State) (n : RegName) (i hi lo : Nat) (j : Nat := 0) : Nat := fld (s.reg n i j) hi lo

/-- Replace a field of a register. -/
def State.setRf (s : State) (n : RegName) (i hi lo x : Nat) (j : Nat := 0) : State :=
  s.setReg n i j (setFld (s.reg n i j) hi lo x)

/-- Add to a saturating counter field. -/
def State.count (s : State) (n : RegName) (i hi lo k : Nat) : State :=
  s.setReg n i 0 (satAdd (s.reg n i) hi lo k)

/-- The bits of a register that the hardware has set in this cycle, of those that a write of 1 clears (R11). -/
def State.setThisCycle (s : State) (n : RegName) (i : Nat) : Word :=
  if s.evt.setAt = s.frame.time then Store.get s.evt.setNow 0 (Reg.addr ⟨n, i, 0⟩) else 0

/-- The hardware sets bits that a write of 1 clears: they prevail over a write in the same cycle (R11). -/
def State.raise (s : State) (n : RegName) (i : Nat) (mask : Word) : State :=
  let now := if s.evt.setAt = s.frame.time then s.evt.setNow else []
  { s.setReg n i 0 (s.reg n i ||| mask) with
    evt := { s.evt with setAt := s.frame.time
                        setNow := Store.set now 0 (Reg.addr ⟨n, i, 0⟩) (s.setThisCycle n i ||| mask)
                        recNow := if s.evt.setAt = s.frame.time then s.evt.recNow else [] } }

/-- The record that a register which still holds one takes where a write of 1 clears it in this cycle; none is 0 (R132). -/
def State.recThisCycle (s : State) (n : RegName) (i : Nat) : Word :=
  if s.evt.setAt = s.frame.time then Store.get s.evt.recNow 0 (Reg.addr ⟨n, i, 0⟩) else 0

/-- The hardware sets VALID of a record register that still holds a record (R11, R132). -/
def State.raiseAgain (s : State) (n : RegName) (i : Nat) (v : Word) : State :=
  let here := s.evt.setAt = s.frame.time
  { s with evt := { s.evt with
      setAt := s.frame.time
      setNow := if here then s.evt.setNow else []
      recNow := if s.recThisCycle n i = 0 then Store.set (if here then s.evt.recNow else []) 0 (Reg.addr ⟨n, i, 0⟩) v
                else s.evt.recNow } }

/-! ### Free values -/

/-- Draw a free value: nothing constrains it (log entry 4). -/
def State.draw (s : State) (w : Nat) : BitVec w × State :=
  (Config.free w s.freeCount, { s with freeCount := s.freeCount + 1 })

/-! ### Outputs and events -/

/-- Send something out of the block. -/
def State.emit (s : State) (o : Output) : State := { s with out := s.out ++ [o] }

/-- The function is in D3hot (R387). -/
def State.inD3 (s : State) : Bool := bit (s.reg .usbStatus) 24

/-- Send one MSI-X message of a vector and note when (R405). -/
def msiSend (v : Nat) (s : State) : State :=
  { s.emit (.msi v) with
    evt := { s.evt with sent := Store.set s.evt.sent none v (some s.frame.time)
                        heldOff := s.evt.heldOff &&& ~~~(1#64 <<< v) } }

/-- The PBA bit of a vector. -/
def setPba (v : Nat) (b : Bool) (s : State) : State :=
  s.setReg .msixPba (v / 32) 0 (setBit (s.reg .msixPba (v / 32)) (v % 32) b)

/-- Whether a vector sent a message less than EVT.HOLDOFF.US microseconds ago (R405). -/
def inHoldoff (v : Nat) (s : State) : Bool :=
  match Store.get s.evt.sent none v with
  | none => false
  | some t => s.frame.time < t + 1000 * s.rf .holdoff 0 9 0

/-- Signal a vector: masked sets its PBA bit, within the hold-off is held, otherwise one message (R405). In D3hot
no message is sent (R387). -/
def signal (v : Nat) (s : State) : State :=
  if bit (s.reg .msixCtrl v) 0 then setPba v true s
  else if inHoldoff v s then
    { s with evt := { s.evt with heldOff := s.evt.heldOff ||| (1#64 <<< v) } }
  else if s.inD3 then s
  else msiSend v s

/-- The 16 bytes of an event record (R403). -/
def eventRecord (src detail : Nat) (phase : Bool) (f : Frame) : List Byte :=
  leBytes 2 (src % 2048 + 32768 * phase.toNat) ++ leBytes 2 0 ++ leBytes 4 f.epoch.toNat ++
    leBytes 4 (min f.cycle (2 ^ 31 - 1) + 2 ^ 31 * f.hold.toNat) ++ leBytes 4 detail

/-- Write a record to the event ring, or count it lost when the ring is full (R404). -/
def ringRecord (src detail : Nat) (s : State) : State :=
  let head := s.rf .ringhead 0 11 0
  let n := s.evt.size
  if (head + 1) % n = s.rf .ringtail 0 11 0 % n then s.count .evtStat 0 31 16 1
  else
    let s := s.emit (.hostWrite (s.evt.base + 16 * head) (eventRecord src detail s.evt.phase s.frame))
    let h := (head + 1) % n
    let s := s.setReg .ringhead 0 0 (BitVec.ofNat 32 h)
    if h = 0 then { s with evt := { s.evt with phase := !s.evt.phase } } else s

/-- The ring record of a source that has fired, then its vector (R402). -/
def routeEvent (src detail : Nat) (s : State) : State :=
  let r := s.reg .evtSrc src
  let s := if bit r 31 && bit (s.reg .ringcfg) 31 then ringRecord src detail s else s
  if bit r 30 then signal (fld r 5 0) s else s

/-- A source fires: PEND is set whatever its routing, then a ring record, then the vector (R402). -/
def fire (src detail : Nat) (s : State) : State :=
  let s := s.raise .evtPend (src / 32) (setBit 0#32 (src % 32) true)
  match s.evt.batch with
  | none => routeEvent src detail s
  | some l => { s with evt := { s.evt with batch := some (l ++ [(src, detail)]) } }

/-- Put a firing after those of lower and equal sources. -/
def insertEvent (x : Nat × Nat) : List (Nat × Nat) → List (Nat × Nat)
  | [] => [x]
  | y :: t => if x.1 < y.1 then x :: y :: t else y :: insertEvent x t

/-- Run something in one cycle: the sources that fire in it are recorded in ascending order (R402; log entry 110). -/
def inOneCycle (f : State → State) (s : State) : State :=
  match s.evt.batch with
  | some _ => f s
  | none =>
    let s := f { s with evt := { s.evt with batch := some [] } }
    let l := ((s.evt.batch.getD []).foldl (fun l x => insertEvent x l) [])
    l.foldl (fun s x => routeEvent x.1 x.2 s) { s with evt := { s.evt with batch := none } }

/-- WRITE_REJECT, system source 13 (R6, R9, R389). -/
def writeReject (s : State) : State := fire 13 0 s

/-! ### The Cairn -/

/-- The module state as IDENTIFY codes it (R396); 0 before STANDBY. -/
def ModState.code : ModState → Nat
  | .starting => 0 | .off => 0 | .standby => 1 | .ready => 2 | .run => 3 | .shed => 4 | .halted => 5

/-- The index of the newest record (R448). -/
def Cairn.newest (c : Cairn) : Nat := (c.next + 2 ^ 32 - 1) % 2 ^ 32

/-- The index of the oldest record held (R448). -/
def Cairn.oldest (c : Cairn) : Nat :=
  match c.recs with
  | [] => 2 ^ 32 - 1
  | r :: _ => r.index

/-- The pinned records held. -/
def Cairn.pinned (c : Cairn) : Nat := (c.recs.filter (·.pinned)).length

/-- Drop the oldest unpinned record (R448). -/
def dropUnpinned : List CairnRec → List CairnRec
  | [] => []
  | r :: t => if r.pinned then r :: dropUnpinned t else t

/-- Put a record into the ring of 32,768 slots. -/
def Cairn.push (c : Cairn) (r : CairnRec) : Cairn :=
  let l := if c.recs.length < 32768 then c.recs else dropUnpinned c.recs
  { c with recs := l ++ [r], next := (c.next + 1) % 2 ^ 32 }

/-- Fire CAIRN_NEAR_WRAP at a crossing of the threshold (R454). -/
def nearWrap (s : State) : State :=
  let d := (s.cairn.newest + 2 ^ 32 - (s.reg .cairnAck).toNat) % 2 ^ 32
  if 32768 - s.cairn.pinned - 1024 ≤ d && !s.cairn.disarmed then
    fire 20 0 { s with cairn := { s.cairn with disarmed := true } }
  else s

/-- Write a Cairn record of a code (R448 to R451). -/
def cairnWrite (code unit : Nat) (detail : List Byte) (pin fromFw : Bool) (s : State) : State :=
  let full := pin && 2048 ≤ s.cairn.pinned
  let pinned := pin && !full
  let fl := pinned.toNat + 2 * full.toNat + 4 * (s.rf .supStatus 0 31 30 == 0).toNat
  let fwver := if fromFw then s.fwVer.toNat else 0
  let body := leBytes 4 s.cairn.next ++ leBytes 6 s.frame.epoch.toNat ++ leBytes 2 fl ++
    leBytes 8 (s.frame.time / 1000) ++ leBytes 2 unit ++ leBytes 2 code ++ bytesAt detail 0 16 ++
    leBytes 2 (s.rf .supVin 0 31 16) ++ leBytes 2 (s.rf .supVin 0 15 0) ++
    [BitVec.ofNat 8 (s.rf .supStatus 0 31 30), BitVec.ofNat 8 s.mode.code] ++
    leBytes 2 (s.rf .thermStatus 0 15 0) ++ leBytes 2 (s.rf .thermStatus 0 24 16) ++
    leBytes 2 (s.rf .thermTemp 272 15 0) ++ leBytes 4 fwver ++ leBytes 4 0
  let r : CairnRec := ⟨s.cairn.next, pinned, body ++ leBytes 4 (crc32c body)⟩
  let s := { s with cairn := s.cairn.push r }
  let s := if full then s.setRf .cairnStatus 0 31 31 1 else s
  nearWrap s

/-! ### Pasture bytes -/

/-- One byte of pasture; a byte nothing has written reads 0. -/
def memByte (m : List Host.Cell) (a : Nat) : Byte := Store.get m 0 a

/-- Write one byte of pasture. -/
def memSetByte (m : List Host.Cell) (a : Nat) (b : Byte) : List Host.Cell := Store.set m 0 a b

/-- Bytes of pasture. -/
def memBytes (m : List Host.Cell) (a : Nat) : Nat → List Byte
  | 0 => []
  | n + 1 => memByte m a :: memBytes m (a + 1) n

/-- Write bytes of pasture. -/
def memSetBytes (m : List Host.Cell) (a : Nat) : List Byte → List Host.Cell
  | [] => m
  | b :: t => memSetBytes (memSetByte m a b) (a + 1) t

/-- A 64-bit pasture word at a byte address (R214). -/
def memWord (m : List Host.Cell) (a : Nat) : Dword := BitVec.ofNat 64 (leNat (memBytes m a 8))

/-- Write a 64-bit pasture word. -/
def memSetWord (m : List Host.Cell) (a : Nat) (v : Dword) : List Host.Cell := memSetBytes m a (leBytes 8 v.toNat)

end Sys2Proof.Machine
end

