-- ==== Sys2Proof/Machine/Probe.lean ====
section
/-! DEFINITION. The probes of the droveway nodes (R276, R277). -/

namespace Sys2Proof.Machine

/-- Record a match in the trace ring of a node: cycle, and three words of what matched. -/
def probeTrace (n : Nat) (w : Word × Word × Word) (s : State) : State :=
  let k := s.rf .probestat n 5 0
  let c := BitVec.ofNat 32 (min s.frame.cycle (2 ^ 31 - 1) + 2 ^ 31 * (bit s.frame.epoch 0).toNat)
  let s := (((s.setReg .nodeTrace n (4 * k) c).setReg .nodeTrace n (4 * k + 1) w.1).setReg .nodeTrace n (4 * k + 2) w.2.1).setReg
    .nodeTrace n (4 * k + 3) w.2.2
  let s := s.setRf .probestat n 5 0 (k + 1)
  s.setRf .probestat n 14 8 (min 64 (s.rf .probestat n 14 8 + 1))

/-- A match at a probe: trace, pulse, count and trigger, in that order (R276, R277). -/
def probeHit (n : Nat) (w : Word × Word × Word) (s : State) : State :=
  let ctl := s.reg .probectl n
  let frozen := bit ctl 28 && bit (s.reg .probestat n) 31
  let s := if fld ctl 31 30 = 2 && !frozen then probeTrace n w s else s
  let s := if bit ctl 27 then { s with edge := { s.edge with hits := n :: s.edge.hits } }.emit (.probePulse n) else s
  let c := s.rf .probecnt n 31 0
  let s := s.count .probecnt n 31 0 1
  let c' := s.rf .probecnt n 31 0
  if bit ctl 29 && c < c' && c' = s.rf .probethr n 31 0 then
    let s := s.raise .probestat n (bit32 true 31)
    if s.dw.probeFired then s
    else fire 22 0 { s with dw := { s.dw with probeFired := true } }
  else s

/-- A MARK write on the marker bus, seen by every probe with MARK = 1 (R128, R276). -/
def probeMark (pf : Nat) (v : Half) (s : State) : State :=
  (List.range 288).foldl (fun s n =>
    let ctl := s.reg .probectl n
    let m := s.reg .probemask1 n
    if fld ctl 31 30 ≠ 0 && bit ctl 26 &&
        ((BitVec.ofNat 32 v.toNat ^^^ s.reg .probematch1 n) &&& m &&& 0xFFFF#32) = 0 then
      probeHit n (at32 0x1F 27 ||| BitVec.ofNat 32 pf, BitVec.ofNat 32 v.toNat, 0) s
    else s) s

/-- Header bits 127:64 of a REQ, RSP or DATA packet as a number (R248). -/
def hdrHigh (p : Pkt) : Nat :=
  p.type.toNat <<< 59 + p.dst.toNat <<< 50 + p.src.toNat <<< 41 + p.unit.toNat <<< 38 + p.tag.toNat <<< 25 +
    p.fepv.toNat <<< 24 + p.fep.toNat <<< 23 + p.tep.toNat <<< 22 + p.vc.toNat <<< 20 + p.urg.toNat <<< 16 +
    p.leg.toNat <<< 14 + p.len.toNat <<< 8 + p.bmask.toNat

/-- Header bits 63:32 (R248): WORD, MRI, ENG and the reserved bits. -/
def hdrLow (p : Pkt) : Nat :=
  p.word.toNat <<< 16 + p.body.mri.toNat <<< 14 + p.body.eng.toNat <<< 12

/-- The flit of an SNP packet (R251). -/
def snpFlit (p : Pkt) (epoch : BitVec 48) : Nat :=
  let top := p.type.toNat <<< 60 + p.dst.toNat <<< 51 + p.src.toNat <<< 42 + (p.vc.toNat % 2) <<< 41
  if p.type = 1 then top + p.body.mask.toNat <<< 37 + p.body.line.toNat <<< 24
  else if p.type = 2 then top + (p.tag.toNat / 512) <<< 37 + (p.tag.toNat % 512) <<< 28
  else top + p.fep.toNat <<< 40 + p.tep.toNat <<< 39 + (epoch.toNat % 65536) <<< 21

/-- The number of a network, as NODE[N].PROBECTL.NET codes it. -/
def netCode : Net → Nat
  | .req => 0 | .rsp => 1 | .data => 2 | .snp => 3

/-- A head flit entering a router from an input port, seen by that router's probe (R276); what the trace keeps of an RSP
below header bit 78 is 0 (DESIGN CHOICE, log entry 133). -/
def probePacket (n inp : Nat) (p : Pkt) (s : State) : State :=
  let ctl := s.reg .probectl n
  let d0 := (at32 p.type.toNat 27 ||| at32 p.dst.toNat 18 ||| at32 p.src.toNat 9) ^^^ s.reg .probematch0 n
  let d1 := (at32 p.tag.toNat 19 ||| at32 p.vc.toNat 17 ||| at32 p.fep.toNat 16) ^^^ s.reg .probematch1 n
  let m0 := s.reg .probemask0 n &&& 0xFFFFFE00#32
  let m0 := if p.net = .snp then m0 &&& 0x7FFFFFFF#32 else m0
  if fld ctl 31 30 ≠ 0 && !(bit ctl 26) && fld ctl 25 24 = netCode p.net &&
      (fld ctl 23 21 = 7 || fld ctl 23 21 = inp) && d0 &&& m0 = 0 &&
      d1 &&& s.reg .probemask1 n &&& 0xFFFF0000#32 = 0 then
    let w := if p.net = .snp then
        let f := snpFlit p s.frame.epoch
        (BitVec.ofNat 32 (f >>> 32), BitVec.ofNat 32 f, 0#32)
      else (BitVec.ofNat 32 (hdrHigh p >>> 32), BitVec.ofNat 32 (hdrHigh p),
        if p.net = .rsp then 0 else BitVec.ofNat 32 (hdrLow p))
    probeHit n w s
  else s

end Sys2Proof.Machine
end

