-- ==== Sys2Proof/Machine/Bank.lean ====
section
/-! DEFINITION. The words of the pasture banks: address map, ECC, atomics, hurdles (R214 to R236, R262, R271). -/

namespace Sys2Proof.Machine

/-- A pasture bank. -/
def State.bank (s : State) (b : Nat) : Bank := Store.get s.banks {} b

/-- Replace a pasture bank. -/
def State.setBank (s : State) (b : Nat) (k : Bank) : State := { s with banks := Store.set s.banks {} b k }

/-- Change a pasture bank. -/
def State.modBank (s : State) (b : Nat) (f : Bank → Bank) : State := s.setBank b (f (s.bank b))

/-- The byte address of word `w` of bank `b` (R214). -/
def wordAddr (b w : Nat) : Nat := b * 0x80000 + 8 * (w % 65536)

/-- The ECC standing of a word. -/
def State.eccOf (s : State) (b w : Nat) : Ecc := Store.get s.ecc .good (b * 65536 + w % 65536)

/-- Set the ECC standing of a word. -/
def State.setEcc (s : State) (b w : Nat) (e : Ecc) : State :=
  { s with ecc := Store.set s.ecc .good (b * 65536 + w % 65536) e }

/-- Whether requests to a bank are answered with ISOLATED (R232, R236, R271). -/
def State.bankShut (s : State) (b : Nat) : Bool := (s.bank b).failed || (s.bank b).hurdle != .opened

/-- Record an uncorrectable error of a word (R228): ECCREC when free, the count, the Cairn. -/
def eccRecord (b w : Nat) (scrubbed : Bool) (s : State) : State :=
  let s := if bit (s.reg .bankEccrec b) 31 then s
    else (s.setReg .bankEccrec b 0 (bit32 scrubbed 16 ||| at32 (w % 65536) 0)).raise .bankEccrec b (bit32 true 31)
  let s := s.count .bankEcccnt b 15 0 1
  cairnWrite 0x40 b (leBytes 2 (w % 65536) ++ [BitVec.ofNat 8 scrubbed.toNat]) false true s

/-- A read finds a single-bit error: count it and queue the write-back (R227). -/
def eccCorrect (b w : Nat) (s : State) : State :=
  let s := s.count .bankEcccnt b 31 16 1
  s.modBank b fun k => { k with writeBack := if k.writeBack.contains (w % 65536) then k.writeBack
                                              else k.writeBack ++ [w % 65536] }

/-- How a bank answers an access to one word. -/
inductive BankAns
  | word (v : Dword)
  | isolated
  | ecc
  deriving DecidableEq, Repr

/-- Read one word at an open bank (R227, R228). -/
def bankRead (b w : Nat) (scrubbed : Bool) (s : State) : BankAns × State :=
  match s.eccOf b w with
  | .good => (.word (memWord s.mem (wordAddr b w)), s)
  | .single => (.word (memWord s.mem (wordAddr b w)), eccCorrect b w s)
  | .double => (.ecc, eccRecord b w scrubbed s)

/-- The stile node of a die's engines: ST1 for engines 8d to 8d + 3, ST2 for the others (R242, R244). -/
def engineNode (e : Nat) : Nat := 272 + 4 * (e / 8) + (if e % 8 < 4 then 1 else 2)

/-- Send an INVAL to every stile that holds a line, and clear the entry (R262). -/
def invalLine (b line : Nat) (s : State) : State :=
  match (s.bank b).holders.find? (·.1 == line) with
  | none => s
  | some h =>
    let nodes := ((List.range 32).filter fun e => bit h.2 e).foldl
      (fun (l : List (Nat × Nat)) e =>
        let n := engineNode e
        match l.find? (·.1 == n) with
        | none => l ++ [(n, 2 ^ (e % 4))]
        | some _ => l.map fun x => if x.1 == n then (n, x.2 + 2 ^ (e % 4)) else x) []
    let s := s.modBank b fun k => { k with holders := k.holders.filter fun x => !(x.1 == line) }
    nodes.foldl (fun s x => s.emit (.packet
      { net := .snp, type := 1, dst := BitVec.ofNat 9 x.1, src := BitVec.ofNat 9 b, vc := 1,
        body := { mask := BitVec.ofNat 4 x.2, line := BitVec.ofNat 13 line } })) s

/-- Store one word at an open bank: a fresh code, the write-back of the word dropped, its line's holders told. -/
def bankStore (b w : Nat) (v : Dword) (s : State) : State :=
  let s := { s with mem := memSetWord s.mem (wordAddr b w) v }
  let s := s.setEcc b w .good
  let s := if (s.bank b).writeBack.contains (w % 65536) then
      s.modBank b fun k => { k with writeBack := k.writeBack.filter fun x => !(x == w % 65536) }
    else s
  invalLine b (w % 65536 / 8) s

/-- The word a byte mask selects the bytes of (R216). -/
def maskBytes (m : BitVec 8) : Dword :=
  (List.range 8).foldl (fun (a : Dword) i => if bit m i then a ||| (0xFF#64 <<< (8 * i)) else a) 0

/-- Write a word under a byte mask: whole words always, a part only where the stored word reads (R216, R228, R229). -/
def bankWrite (b w : Nat) (m : BitVec 8) (v : Dword) (s : State) : State :=
  if m = 0xFF then bankStore b w v s
  else
    match bankRead b w false s with
    | (.word o, s) => bankStore b w ((o &&& ~~~(maskBytes m)) ||| (v &&& maskBytes m)) s
    | (_, s) => s

/-- An atomic on a word: the old word and the state after it; nothing is written over an uncorrectable error
(R221, R228). -/
def bankAtomic (b w : Nat) (f : Dword → Dword) (s : State) : BankAns × State :=
  match bankRead b w false s with
  | (.word o, s) => (.word o, (bankStore b w (f o) s).count .atomcnt b 31 0 1)
  | (a, s) => (a, s)

/-- Record an engine's line fill in the holder record, evicting the least recently filled entry (R262). -/
def holdLine (b line e : Nat) (s : State) : State :=
  let k := s.bank b
  let old := match k.holders.find? (·.1 == line) with
    | none => 0
    | some h => h.2
  let rest := k.holders.filter fun x => !(x.1 == line)
  let s := if rest.length < 1024 then s.setBank b { k with holders := rest }
    else match rest with
      | [] => s
      | x :: _ => (invalLine b x.1 s).modBank b fun k => { k with holders := k.holders.filter fun y => !(y.1 == line) }
  s.modBank b fun k => { k with holders := k.holders ++ [(line, old ||| (1#32 <<< e))] }

/-! ### Nodes -/

/-- A place in the mesh: die and local coordinates (R241). -/
structure Place where
  die : Nat
  u : Nat
  v : Nat
  deriving DecidableEq, Repr

/-- The fold index in a die where each local row begins (R243). -/
def rowStarts : List Nat := [0, 9, 17, 26, 34, 42, 51, 59]

/-- The local rows of the stiles (R242). -/
def stileRows : List Nat := [1, 3, 4, 6]

/-- The place of a node; the hub has none and reads as the origin (R242 to R244). -/
def placeOf (n : Nat) : Place :=
  if n < 272 then
    let k := n % 68
    let v := (rowStarts.filter (· ≤ k)).length - 1
    let j := k - rowStarts.getD v 0
    ⟨n / 68, if stileRows.contains v && 4 ≤ j then j + 1 else j, v⟩
  else ⟨(n - 272) / 4 % 4, 4, stileRows.getD ((n - 272) % 4) 0⟩

/-- The node at a place (R242, R243). -/
def nodeAt (p : Place) : Nat :=
  if p.u = 4 && stileRows.contains p.v then 272 + 4 * p.die + (stileRows.filter (· < p.v)).length
  else 68 * p.die + rowStarts.getD p.v 0 + (if stileRows.contains p.v && 4 < p.u then p.u - 1 else p.u)

/-- The bridges of stiles ST0 to ST3 of the four dies (R242). -/
def stileBridges : List (List Nat) := [[0, 4, 5, 1], [0, 6, 7, 1], [2, 4, 5, 3], [2, 6, 7, 3]]

/-- The bridge of stile `j` of die `d`. -/
def bridgeOf (d j : Nat) : Nat := (stileBridges.getD d []).getD j 8

/-- The stile of die `d` that carries a bridge. -/
def stileOf (d b : Nat) : Nat := 272 + 4 * d + ((stileBridges.getD d []).findIdx (· == b))

/-- The die at the far end of a bridge from die `d`. -/
def farDie (d b : Nat) : Nat :=
  ((List.range 4).find? fun x => x ≠ d && (stileBridges.getD x []).contains b).getD d

/-- The bridge pair of the next crossing from die `d` to die `t`: the horizontal pair first, then the vertical one
(R246). -/
def crossPair (d t : Nat) : Nat :=
  if d % 2 ≠ t % 2 then (if d < 2 then 0 else 2) else (if d % 2 = 0 then 4 else 6)

/-- The bridge a die's route record names for a destination node (R246, R313): the lower one without a record. -/
def routeBridge (t : TabSet) (d n : Nat) : Nat :=
  crossPair d (placeOf n).die + (bit (t.routes.getD d 0) n).toNat

/-- The stile at which traffic from one node to another meets a lost bridge: the end nearer its source (R274, R275). -/
def State.cutAt (s : State) (src dst : Nat) : Option Nat :=
  let d := (placeOf src).die
  let t := (placeOf dst).die
  if d = t then none
  else
    let b1 := routeBridge s.dw.tabs d dst
    let d2 := farDie d b1
    let b2 := routeBridge s.dw.tabs d2 dst
    if bit s.dw.lost b1 then some (stileOf d b1)
    else if d2 ≠ t && bit s.dw.lost b2 then some (stileOf d2 b2)
    else none

/-- The node that answers a request from a node to a bank with ISOLATED: a lost bridge's end, or the bank's hurdle
(R271, R274). -/
def State.refusedAt (s : State) (src b : Nat) : Option Nat :=
  match s.cutAt src b with
  | some n => some n
  | none => if s.bankShut b then some b else none

/-- A hurdle of a node sends an ISOLATED error: the count of the node, and ISOLATED_TARGET once in a frame (R271,
R272). -/
def isolatedSent (n : Nat) (s : State) : State :=
  let s := s.count .nodeErrcnt1 n 31 16 1
  if s.dw.isoFired then s else fire 15 0 { s with dw := { s.dw with isoFired := true } }

end Sys2Proof.Machine
end

