-- ==== Sys2Proof/Machine/Operands.lean ====
section
/-! DEFINITION. Folds, pens and the operand forms of the array: members, the window, conditions, planes and parity
(R53 to R75, R91 to R96, R102, R113). -/

namespace Sys2Proof.Machine

/-! ### Folds and pens -/

/-- A physical fold. -/
def State.fold (s : State) (pf : Nat) : Fold := Store.get s.arr.folds {} pf

/-- Replace a physical fold. -/
def State.setFold (s : State) (pf : Nat) (f : Fold) : State :=
  { s with arr := { s.arr with folds := Store.set s.arr.folds {} pf f } }

/-- Change a physical fold. -/
def State.modFold (s : State) (pf : Nat) (g : Fold → Fold) : State := s.setFold pf (g (s.fold pf))

/-- A fold's sequencer. -/
def State.seq (s : State) (pf : Nat) : Seq := (s.fold pf).seq

/-- Change a fold's sequencer. -/
def State.modSeq (s : State) (pf : Nat) (g : Seq → Seq) : State :=
  s.modFold pf fun f => { f with seq := g f.seq }

/-- The pen whose first logical fold is given. -/
def State.penAt (s : State) (first : Nat) : Option Pen := s.arr.pens.find? (·.cfg.first == first)

/-- The pen a logical fold belongs to (R63). -/
def State.penOf (s : State) (lf : Nat) : Option Pen :=
  s.arr.pens.find? fun p => p.cfg.first ≤ lf && lf < p.cfg.first + p.cfg.count

/-- Change the pen whose first logical fold is given. -/
def State.modPen (s : State) (first : Nat) (g : Pen → Pen) : State :=
  { s with arr := { s.arr with pens := s.arr.pens.map fun p => if p.cfg.first = first then g p else p } }

/-- Change every pen. -/
def State.mapPens (s : State) (g : Pen → Pen) : State := { s with arr := { s.arr with pens := s.arr.pens.map g } }

/-- The physical fold that carries a logical fold under the relocation table in force: the fold itself says the same, so
that no two logical folds have one (R319). -/
def State.pfOf (s : State) (lf : Nat) : Option Nat :=
  match Store.get s.arr.place 0 lf with
  | 0 => none
  | k + 1 => if k < 272 && (s.fold k).lf == lf then some k else none

/-- The bank of a logical fold (R215). -/
def State.bankOf (s : State) (lf : Nat) : Option Nat :=
  match Store.get s.arr.home 0 lf with
  | 0 => none
  | k + 1 => some k

/-- A pen's logical folds (R62). -/
def Pen.members (p : Pen) : List Nat := (List.range p.cfg.count).map (p.cfg.first + ·)

/-- The physical folds of a pen's members, lowest logical fold first. -/
def State.memberFolds (s : State) (p : Pen) : List Nat := p.members.filterMap s.pfOf

/-- The members that execute the pen's instructions: ON and not LOST (R68, R81). -/
def State.liveFolds (s : State) (p : Pen) : List Nat :=
  (s.memberFolds p).filter fun pf => (s.fold pf).power == .on && !(s.fold pf).lost

/-- The pen of a physical fold: that of the logical fold the relocation table in force places on it. -/
def State.penOfFold (s : State) (pf : Nat) : Option Pen :=
  if s.pfOf (s.fold pf).lf = some pf then s.penOf (s.fold pf).lf else none

/-- Mark a pen FAULTED for the frame (R38). -/
def markFaulted (first : Nat) (s : State) : State := s.modPen first fun p => { p with faulted := true }

/-- Mark the pen of a physical fold FAULTED. -/
def faultPenOf (pf : Nat) (s : State) : State :=
  match s.penOfFold pf with
  | none => s
  | some p => markFaulted p.cfg.first s

/-- FAULT of a fold with its FOLD_FAULT record, at most once in a frame (R75, R80, R402, R451). -/
def faultFold (pf : Nat) (s : State) : State :=
  if (s.fold pf).faultFired then s
  else
    let s := inOneCycle (fun s =>
      cairnWrite 0x30 pf (leBytes 1 (s.rf .faultstat pf 3 0) ++ leBytes 1 (s.rf .faultstat pf 23 16)) false true
        (fire (64 + 4 * pf + 3) 0 s)) s
    s.modFold pf fun f => { f with faultFired := true }

/-- Run something for each of a list of folds. -/
def forFolds (l : List Nat) (g : Nat → State → State) (s : State) : State := l.foldl (fun s pf => g pf s) s

/-! ### Planes and rows -/

/-- What an unlisted plane of a fold reads as: 0, or the contents OFF lost (R81). -/
def State.planeDflt (s : State) (pf a : Nat) : Plane :=
  if (s.fold pf).seed = 0 then 0 else Config.lostPlane (s.fold pf).seed a

/-- A plane of a fold's B-space (R53). -/
def State.plane (s : State) (pf a : Nat) : Plane :=
  Store.get s.arr.planes (s.planeDflt pf (a % 2048)) (2048 * pf + a % 2048)

/-- Replace a plane of a fold's B-space. -/
def State.setPlane (s : State) (pf a : Nat) (v : Plane) : State :=
  { s with arr := { s.arr with
      planes := Store.set s.arr.planes (s.planeDflt pf (a % 2048)) (2048 * pf + a % 2048) v } }

/-- The rows of a plane whose stored parity bit disagrees (R74). -/
def State.badRows (s : State) (pf a : Nat) : BitVec 64 := Store.get s.arr.badRows 0 (2048 * pf + a % 2048)

/-- Set the rows of a plane whose stored parity bit disagrees. -/
def State.setBadRows (s : State) (pf a : Nat) (v : BitVec 64) : State :=
  { s with arr := { s.arr with badRows := Store.set s.arr.badRows 0 (2048 * pf + a % 2048) v } }

/-- Row `y` of a plane: bit x belongs to PE (x, y). -/
def rowOf (v : Plane) (y : Nat) : Dword := v.extractLsb' (64 * y) 64

/-- The PEs of row `y`. -/
def rowMask (y : Nat) : Plane := BitVec.ofNat 4096 ((2 ^ 64 - 1) <<< (64 * y))

/-- A plane with row `y` replaced. -/
def setRow (v : Plane) (y : Nat) (r : Dword) : Plane :=
  (v &&& ~~~(rowMask y)) ||| BitVec.ofNat 4096 (r.toNat <<< (64 * y))

/-- The rows in which a plane has a 1. -/
def rowsOf (v : Plane) : BitVec 64 :=
  (List.range 64).foldl (fun (m : BitVec 64) y => if rowOf v y = 0 then m else m ||| (1#64 <<< y)) 0

/-- The lowest row a mask names. -/
def lowRow (m : BitVec 64) : Nat := ((List.range 64).find? fun y => bit m y).getD 0

/-- Parity checks that failed on rows read through a port (R75, R516): the fold must be ON. -/
def parityFail (pf a : Nat) (rows : BitVec 64) (planePort : Bool) (s : State) : State :=
  if rows = 0 || (s.fold pf).power != .on then s
  else
    let s := s.count .parcnt pf 31 0 (popcount rows)
    let s := s.raise .faultstat pf 1#32
    let s := if (s.fold pf).parFrame then s
      else
        let s := s.setReg .paraddr pf 0 (bit32 true 31 ||| bit32 planePort 17 ||| at32 (a % 2048) 6 |||
          at32 (lowRow rows) 0)
        faultFold pf (s.modFold pf fun f => { f with parFrame := true })
    faultPenOf pf s

/-- A PE read of a plane: all 64 rows are read and checked (R74). -/
def readPlane (pf a : Nat) (s : State) : Plane × State :=
  (s.plane pf a, parityFail pf a (s.badRows pf a) false s)

/-- A PE write of a plane: the enabled PEs' bits change, and the parity of every row written is computed anew. -/
def writePlane (pf a : Nat) (en v : Plane) (s : State) : State :=
  let old := s.plane pf a
  let s := s.setPlane pf a ((old &&& ~~~en) ||| (v &&& en))
  if s.badRows pf a = 0 then s else s.setBadRows pf a (s.badRows pf a &&& ~~~(rowsOf en))

/-- A plane-port read of one row, checked (R74). -/
def readRow (pf a y : Nat) (s : State) : Dword × State :=
  (rowOf (s.plane pf a) y, parityFail pf a (s.badRows pf a &&& (1#64 <<< y)) true s)

/-- Whether an address lies in the confined range of a window base (R160). -/
def confined (wb : BitVec 11) (a : Nat) : Bool := (a + 2048 - (wb.toNat + 32) % 2048) % 2048 < 32

/-- A plane-port write during run-ahead goes to the snapshot too, unless a move issued in run-ahead made it (R161). -/
def snapRow (pf a y : Nat) (r : Dword) (s : State) : State :=
  match s.penOfFold pf with
  | none => s
  | some p =>
    match p.leader with
    | none => s
    | some lead =>
      s.modSeq lead fun q =>
        match q.ra with
        | none => q
        | some ra =>
          if confined ra.core.wb (a % 2048) then
            let k := (a % 2048 + 2048 - (ra.core.wb.toNat + 32) % 2048) % 2048
            { q with ra := some { ra with folds := ra.folds.map fun x =>
                if x.1 = pf then (x.1, { x.2 with planes := x.2.planes.set k (setRow (x.2.planes.getD k 0) y r) })
                else x } }
          else q

/-- A plane-port write of one row: parity computed, the run-ahead snapshot follows unless the write is speculative
(R74, R161). -/
def writeRow (pf a y : Nat) (r : Dword) (spec : Bool) (s : State) : State :=
  let s := s.setPlane pf a (setRow (s.plane pf a) y r)
  let s := if s.badRows pf a = 0 then s else s.setBadRows pf a (s.badRows pf a &&& ~~~(1#64 <<< y))
  if spec then s else snapRow pf a y r s

/-! ### I-space and D-space -/

/-- The word SYS HALT, which a load writes above ILEN (R283). -/
def haltWord : BitVec 14 := 0x0BC5

/-- What an unlisted I-space word of a fold reads as: 0 before a load, SYS HALT after one, or what OFF lost (R283, R397). -/
def State.iDflt (s : State) (pf a : Nat) : BitVec 14 :=
  match (s.fold pf).fill with
  | .blank => 0
  | .loaded => haltWord
  | .lost seed => Config.lostIWord seed a

/-- What an unlisted D-space word of a fold reads as: 0, or what OFF lost (R283, R397). -/
def State.dDflt (s : State) (pf a : Nat) : Half :=
  match (s.fold pf).fill with
  | .blank => 0
  | .loaded => 0
  | .lost seed => Config.lostDWord seed a

/-- A word of a fold's I-space (R91). -/
def State.iword (s : State) (pf a : Nat) : BitVec 14 :=
  Store.get s.arr.ispace (s.iDflt pf (a % 16384)) (16384 * pf + a % 16384)

/-- Write a word of a fold's I-space. -/
def State.setIword (s : State) (pf a : Nat) (v : BitVec 14) : State :=
  let m := Store.set s.arr.ispace (s.iDflt pf (a % 16384)) (16384 * pf + a % 16384) v
  { s with arr := { s.arr with ispace := m } }

/-- A word of a fold's D-space (R91). -/
def State.dword (s : State) (pf a : Nat) : Half :=
  Store.get s.arr.dspace (s.dDflt pf (a % 4096)) (4096 * pf + a % 4096)

/-- Write a word of a fold's D-space. -/
def State.setDword (s : State) (pf a : Nat) (v : Half) : State :=
  let m := Store.set s.arr.dspace (s.dDflt pf (a % 4096)) (4096 * pf + a % 4096) v
  { s with arr := { s.arr with dspace := m } }

/-- Write a fold's whole I-space and D-space from listed words and what fills the rest. -/
def State.setProgram (s : State) (pf : Nat) (fill : Fill) (is : Store (BitVec 14)) (ds : Store Half) : State :=
  let s := s.modFold pf fun f => { f with fill := fill }
  { s with arr := { s.arr with
    ispace := Store.splice s.arr.ispace (16384 * pf) (16384 * pf + 16384) is
    dspace := Store.splice s.arr.dspace (4096 * pf) (4096 * pf + 4096) ds } }

/-! ### Conditions, the window, the latch -/

/-- The PEs a COND enables, on the A and T of the start of the cycle (R56, R93). -/
def enabledPes (cond : BitVec 2) (r : PeRegs) : Plane :=
  match cond.toNat with
  | 0 => BitVec.allOnes 4096
  | 1 => r.a
  | 2 => ~~~r.a
  | _ => r.t

/-- The Muster latch as the program sees it: the prediction during run-ahead (R158). -/
def Seq.latchSeen (q : Seq) : Bool :=
  match q.ra with
  | none => q.latch
  | some r => r.p

/-- Whether a sequencer-class instruction executes (R94). -/
def condHolds (cond : BitVec 2) (q : Seq) : Bool :=
  match cond.toNat with
  | 0 => true
  | 1 => q.core.s[7] ≠ 0
  | 2 => q.core.s[7] = 0
  | _ => q.latchSeen

/-- The window offset of a repetition (R113). -/
def effOff (off : BitVec 6) (rep : Option Rep) : BitVec 6 :=
  match rep with
  | none => off
  | some r => if r.down then off - BitVec.ofNat 6 r.i else off + BitVec.ofNat 6 r.i

/-- The plane a window offset names: (WB + OFF) mod 2,048 (R54). -/
def windowAddr (q : Seq) (off : BitVec 6) : Nat := (q.core.wb.toNat + (effOff off q.rep).toNat) % 2048

/-- Blend: the new bits where a mask is 1, the old ones elsewhere. -/
def blend (m new old : Plane) : Plane := (new &&& m) ||| (old &&& ~~~m)

/-- Write a sequencer's scalar register. -/
def SeqCore.setS (c : SeqCore) (r : Fin 8) (v : Half) : SeqCore := { c with s := c.s.set r v }

/-- Write a scalar register of a fold's sequencer. -/
def setSreg (pf : Nat) (r : Fin 8) (v : Half) (s : State) : State :=
  s.modSeq pf fun q => { q with core := q.core.setS r v }

end Sys2Proof.Machine
end

