-- ==== Sys2Proof/Machine/Flags.lean ====
section
/-! DEFINITION. The bit computations of the PEs: full adders, borrows, the FLAG operations, neighbour shifts (R60, R69,
R134 to R137). -/

namespace Sys2Proof.Machine

/-- The majority of three bits, in every PE. -/
def maj (p q r : Plane) : Plane := (p &&& q) ||| (p &&& r) ||| (q &&& r)

/-- The functions of a BITOP (R134). -/
inductive BitFn
  | and | or | xor | add | sub | andn | mux | cmpb
  deriving DecidableEq, Repr

/-- W after a BITOP: from W, b, C and T (R134). -/
def BitFn.newW (f : BitFn) (w b c t : Plane) : Plane :=
  match f with
  | .and => w &&& b
  | .or => w ||| b
  | .xor => w ^^^ b
  | .add => w ^^^ b ^^^ c
  | .sub => w ^^^ ~~~b ^^^ c
  | .andn => w &&& ~~~b
  | .mux => blend t b w
  | .cmpb => w

/-- C after a BITOP (R134): the carry of ADD, the inverted borrow of SUB and CMPB. -/
def BitFn.newC (f : BitFn) (w b c : Plane) : Plane :=
  match f with
  | .add => maj w b c
  | .sub => maj w (~~~b) c
  | .cmpb => maj w (~~~b) c
  | _ => c

/-- The operations of a FLAG but SWAP (R98, R136). -/
inductive FlagFn
  | mov | and | or | xor | andn | movn
  deriving DecidableEq, Repr

/-- The target after a FLAG operation, from the target's and the source's values (R136). -/
def FlagFn.apply (f : FlagFn) (tgt src : Plane) : Plane :=
  match f with
  | .mov => src
  | .and => tgt &&& src
  | .or => tgt ||| src
  | .xor => tgt ^^^ src
  | .andn => tgt &&& ~~~src
  | .movn => ~~~src

/-- A FLAG source's value in every PE; the latch is one bit for all of them (R136). -/
def flagSource (src : FlagSrc) (latch : Bool) (r : PeRegs) : Plane :=
  match src with
  | .w => r.w
  | .c => r.c
  | .a => r.a
  | .t => r.t
  | .x => r.x
  | .m => if latch then BitVec.allOnes 4096 else 0
  | .zero => 0
  | .one => BitVec.allOnes 4096

/-- A FLAG target's value. Target M is no PE register. -/
def flagTarget (t : FlagTgt) (r : PeRegs) : Plane :=
  match t with
  | .w => r.w
  | .c => r.c
  | .a => r.a
  | .t => r.t
  | .x => r.x
  | .m => 0

/-- Write a FLAG target. -/
def setTarget (t : FlagTgt) (v : Plane) (r : PeRegs) : PeRegs :=
  match t with
  | .w => { r with w := v }
  | .c => { r with c := v }
  | .a => { r with a := v }
  | .t => { r with t := v }
  | .x => { r with x := v }
  | .m => r

/-- The target a SWAP's source names, when it names a PE register (R99). -/
def swapSource : FlagSrc → Option FlagTgt
  | .w => some .w
  | .c => some .c
  | .a => some .a
  | .t => some .t
  | .x => some .x
  | _ => none

/-- Whether a FLAG writes X, for the holds of R163. -/
def flagWritesX (tgt : FlagTgt) (src : FlagSrc) (swap : Bool) : Bool :=
  tgt == .x || (swap && src == .x)

/-! ### Neighbour moves -/

/-- The PEs of column `x`. -/
def colMask (x : Nat) : Plane :=
  BitVec.ofNat 4096 ((List.range 64).foldl (fun a y => a + 2 ^ (64 * y + x)) 0)

/-- X of (x, y − 1) in each PE, row 0 taking row 63 of the fold above. -/
def fromNorth (x above : Plane) : Plane := (x <<< 64) ||| (above >>> 4032)

/-- X of (x, y + 1) in each PE, row 63 taking row 0 of the fold below. -/
def fromSouth (x below : Plane) : Plane := (x >>> 64) ||| (below <<< 4032)

/-- X of (x + 1, y) in each PE, column 63 taking column 0 of the fold to the east. -/
def fromEast (x east : Plane) : Plane :=
  ((x >>> 1) &&& ~~~(colMask 63)) ||| ((east &&& colMask 0) <<< 63)

/-- X of (x − 1, y) in each PE, column 0 taking column 63 of the fold to the west. -/
def fromWest (x west : Plane) : Plane :=
  ((x <<< 1) &&& ~~~(colMask 0)) ||| ((west &&& colMask 63) >>> 63)

/-- A plane of one bit, the fill of EDGE 0b00 and 0b01. -/
def fillPlane (b : Bool) : Plane := if b then BitVec.allOnes 4096 else 0

/-- The X a pen's member drives at grid position (i, j): 0 in a LOST member (R68). -/
def memberX (s : State) (p : Pen) (i j : Nat) : Plane :=
  match s.pfOf (p.cfg.first + j * p.cfg.width + i) with
  | none => 0
  | some pf => if (s.fold pf).lost then 0 else (s.fold pf).pe.x

/-- What lies beyond the pen's edge in one direction for the member at (i, j), as a plane placed like the fold that
would stand there (R69). -/
def beyondEdge (s : State) (p : Pen) (dir : NeighDir) (i j : Nat) : Plane :=
  let w := p.cfg.width
  let h := p.cfg.count / p.cfg.width
  match dir with
  | .e => match p.cfg.ew with
    | .fill => 0
    | .wrap => memberX s p 0 j
    | .skew => fromSouth (memberX s p 0 j) (memberX s p 0 ((j + 1) % h))
  | .w => match p.cfg.ew with
    | .fill => 0
    | .wrap => memberX s p (w - 1) j
    | .skew => fromNorth (memberX s p (w - 1) j) (memberX s p (w - 1) ((j + h - 1) % h))
  | .n => match p.cfg.ns with
    | .fill => 0
    | .wrap => memberX s p i (h - 1)
    | .skew => fromWest (memberX s p i (h - 1)) (memberX s p ((i + w - 1) % w) (h - 1))
  | .s => match p.cfg.ns with
    | .fill => 0
    | .wrap => memberX s p i 0
    | .skew => fromEast (memberX s p i 0) (memberX s p ((i + 1) % w) 0)
  | _ => 0

/-- The neighbouring fold's X for the member at (i, j): a seam inside the pen, or the pen's edge (R64, R69). -/
def seamX (s : State) (p : Pen) (dir : NeighDir) (edge : EdgeFill) (i j : Nat) : Plane :=
  let w := p.cfg.width
  let h := p.cfg.count / p.cfg.width
  let out := match edge with
    | .zero => fillPlane false
    | .one => fillPlane true
    | .wrap => beyondEdge s p dir i j
  match dir with
  | .e => if i + 1 < w then memberX s p (i + 1) j else out
  | .w => if 0 < i then memberX s p (i - 1) j else out
  | .n => if 0 < j then memberX s p i (j - 1) else out
  | .s => if j + 1 < h then memberX s p i (j + 1) else out
  | _ => 0

/-- What a long link delivers (R70, R71): a valid link's source X, 0 from a LOST or isolated source; an invalid link the
EDGE fill, 0 under 0b10. -/
def longX (s : State) (src : Option Nat) (edge : EdgeFill) : Plane :=
  match src with
  | none => fillPlane (edge == .one)
  | some lf =>
    match s.pfOf lf with
    | none => 0
    | some pf => if (s.fold pf).lost || (s.fold pf).role == .isolated then 0 else (s.fold pf).pe.x

/-- The bits a NEIGH delivers to the member at logical fold `lf` (R60, R64, R69, R70). -/
def neighBits (s : State) (p : Pen) (q : Seq) (dir : NeighDir) (edge : EdgeFill) (lf pf : Nat) : Plane :=
  let k := lf - p.cfg.first
  let i := k % p.cfg.width
  let j := k / p.cfg.width
  let f := s.fold pf
  match dir with
  | .n => fromNorth f.pe.x (seamX s p .n edge i j)
  | .s => fromSouth f.pe.x (seamX s p .s edge i j)
  | .e => fromEast f.pe.x (seamX s p .e edge i j)
  | .w => fromWest f.pe.x (seamX s p .w edge i j)
  | .longN => longX s f.lnsrc edge
  | .longE => longX s f.lesrc edge
  | .bcast => fillPlane (bit q.core.s[6] 0)
  | .ingest => f.pe.tap

end Sys2Proof.Machine
end

