-- ==== Sys2Proof/Machine/Issue.lean ====
section
/-! DEFINITION. How a pen's sequencer issues one instruction: whether it can, what holds it, its condition, the program
counter, repeats, the load delay and run-ahead counting (R95, R100, R111 to R115, R121, R129, R145, R159, R163). -/

namespace Sys2Proof.Machine

/-- What an instruction is to the rules that hold it back (R145, R151, R163). -/
inductive Uk
  /-- Reads the plane at a window offset (BITOP, LD, LDN). -/
  | read (off : BitVec 6)
  /-- Writes the plane at a window offset (ST, STC). -/
  | store (off : BitVec 6)
  | flag (writesX tgtM : Bool)
  | neigh (dir : NeighDir)
  | seq
  | io
  | rep
  | call
  | ret
  | br
  | mstr
  | nop
  /-- WAITM, YIELD, SPEC, HALT. -/
  | sys
  /-- An EXT that may run ahead. -/
  | ext
  | drop
  /-- An EXT that run-ahead always holds: WEGO, CKPT, DST, GOUT, GIN of EPOCH0. -/
  | held
  | planeOut
  | planeIn (off : BitVec 6)
  | histo
  /-- An undefined encoding of a class that may be repeated, and of one that may not. -/
  | undef
  | undefCtl
  deriving DecidableEq, Repr

/-- Whether an instruction may follow a repeat prefix (R112). -/
def Uk.repeatable : Uk → Bool
  | .read _ => true
  | .store _ => true
  | .flag _ _ => true
  | .neigh _ => true
  | .seq => true
  | .io => true
  | .undef => true
  | _ => false

/-- The issuing pen, its leader's physical fold and that fold's sequencer as the instruction starts. -/
structure Ictx where
  pen : Pen
  pf : Nat
  seq : Seq

/-- Whether the module runs pens (R434). -/
def State.running (s : State) : Bool := s.mode == .run || s.mode == .shed

/-- Whether a repetition of some cycles that would start now ends in time (R31). -/
def Rep.fits (r : Rep) (now cost : Nat) : Bool :=
  match r.stop with
  | none => true
  | some x => max x.1 now + cost ≤ x.2 + 1

/-- Cycles of a stopped pen's repeat have passed (R31). -/
def Rep.spend (r : Rep) (now n : Nat) : Rep := { r with stop := r.stop.map fun x => (max x.1 now + n, x.2) }

/-- The pen that issues, if it can: entered and not yielded, stopped only inside a repeat it may finish, its leader a member
that is ON and in lockstep, no hold, no CANCEL, no stall, past its wake or restore (R16, R27, R30, R31, R65, R77, R83, R155, R166). -/
def penIssue (s : State) (first : Nat) : Option Ictx :=
  match s.penAt first with
  | none => none
  | some p =>
    match p.leader with
    | none => none
    | some pf =>
      let f := s.fold pf
      let q := f.seq
      let fin := match q.rep with
        | none => false
        | some r => r.fits s.frame.cycle 1 && r.stop.isSome
      if (s.memberFolds p).contains pf && s.running && p.run && (!p.stopped || fin) && !s.frame.hold && f.power == .on && !q.dead &&
          q.cancel.isNone && !q.stall && p.notBefore ≤ s.frame.cycle
      then some ⟨p, pf, q⟩ else none

/-- STKMODE = TRAP in the leader (R105). -/
def stkTrap (s : State) (pf : Nat) : Bool := s.rf .seqcfg pf 0 0 = 1

/-- Whether some fold of a pen is a valid long-link source of a fold of another pen (R163). -/
def isLongSource (s : State) (p : Pen) : Bool :=
  s.arr.pens.any fun o => o.cfg.first != p.cfg.first && (s.memberFolds o).any fun pf =>
    let f := s.fold pf
    let inPen := fun (l : Option Nat) => match l with
      | none => false
      | some lf => p.cfg.first ≤ lf && lf < p.cfg.first + p.cfg.count
    inPen f.lnsrc || inPen f.lesrc

/-- Whether a NEIGH direction names a valid long link from another pen in some member (R71, R163). -/
def crossPen (s : State) (p : Pen) (dir : NeighDir) : Bool :=
  (s.memberFolds p).any fun pf =>
    let l := match dir with
      | .longN => (s.fold pf).lnsrc
      | .longE => (s.fold pf).lesrc
      | _ => none
    match l with
    | none => false
    | some lf => !(p.cfg.first ≤ lf && lf < p.cfg.first + p.cfg.count)

/-- Whether run-ahead holds an instruction before issue (R159, R163); a CALL, RET or drop whose condition is false neither
pushes nor pops. -/
def raHolds (s : State) (c : Ictx) (k : Uk) (executes : Bool) : Bool :=
  match c.seq.ra with
  | none => false
  | some ra =>
    (k != .rep && 32 ≤ ra.count) ||
    match k with
    | .store off => !(confined ra.core.wb (windowAddr c.seq off))
    | .flag wx tm => tm || (wx && isLongSource s c.pen)
    | .neigh dir => crossPen s c.pen dir || isLongSource s c.pen
    | .io => true
    | .call => executes && c.seq.core.depth = 16 && stkTrap s c.pf
    | .ret => executes && c.seq.core.depth = 0 && stkTrap s c.pf
    | .drop => executes && c.seq.core.depth = 0 && stkTrap s c.pf
    | .mstr => true
    | .sys => true
    | .held => true
    | .planeOut => true
    | .histo => true
    | .planeIn off => !(confined ra.core.wb ((c.seq.core.wb.toNat + off.toNat) % 2048))
    | .undef => true
    | .undefCtl => true
    | _ => false

/-- Whether a unit holds an instruction before issue: an MSTR, whatever its condition, a pending reduction (R151); an
executing one a plane a move uses (R145) or that a HISTO still reads (R148), a full mover queue (R142), a busy tally unit (R148). -/
def unitHolds (s : State) (c : Ictx) (k : Uk) (executes : Bool) : Bool :=
  (k == .mstr || executes) &&
  match k with
  | .read off => (s.liveFolds c.pen).any fun pf =>
      (s.fold pf).moves.any fun m => !m.out && m.plane.toNat == windowAddr c.seq off
  | .store off => (s.liveFolds c.pen).any fun pf =>
      (s.fold pf).moves.any (fun m => m.plane.toNat == windowAddr c.seq off && (!m.out || m.data.length < 64)) ||
        (s.fold pf).histo.any fun h => 0 < h.left && (windowAddr c.seq off + 2048 - h.first) % 2048 < h.planes.length
  | .mstr => c.seq.red.isSome
  | .planeOut => (s.liveFolds c.pen).any fun pf => 4 ≤ (s.fold pf).moves.length
  | .planeIn _ => (s.liveFolds c.pen).any fun pf => 4 ≤ (s.fold pf).moves.length
  | .histo => (s.liveFolds c.pen).any fun pf => (s.fold pf).histo.isSome
  | _ => false

/-- The die of a physical fold. -/
def dieOf (pf : Nat) : Nat := pf / 68

/-- The ACLK cycles of one repetition, which bound a stopped pen's repeat (R31, R61). -/
def issueCost (s : State) (c : Ictx) (k : Uk) : Nat :=
  match k with
  | .neigh dir =>
    let fs := s.memberFolds c.pen
    if dir = .longN || dir = .longE then
      if fs.all fun pf =>
          match (if dir = .longN then (s.fold pf).lnsrc else (s.fold pf).lesrc) with
          | none => true
          | some lf => match s.pfOf lf with
            | none => true
            | some q => dieOf q == dieOf pf
      then 2 else 4
    else if fs.all fun pf => dieOf pf == dieOf c.pf then 1 else 3
  | _ => 1

/-- The load of the instruction before lands: its register is written, in the snapshot too when the load was issued
before run-ahead (R121, R122, R161). -/
def landLoad (pf : Nat) (load : Option (Fin 8 × Half)) (early : Bool) (s : State) : State :=
  match load with
  | none => s
  | some (r, v) =>
    s.modSeq pf fun q =>
      { q with core := q.core.setS r v
               ra := if early then q.ra.map fun x => { x with core := x.core.setS r v } else q.ra }

/-- An instruction held before issue: the cycle passes, and a load still due lands in it (R31, R121). -/
def holdIssue (c : Ictx) (s : State) : State :=
  landLoad c.pf c.seq.load c.seq.ra.isNone
    (s.modSeq c.pf fun q => { q with load := none, rep := q.rep.map (·.spend s.frame.cycle 1) })

/-- STACK: once in a stage at the leader's fold, and the pen FAULTED (R106). -/
def raiseStack (c : Ictx) (s : State) : State :=
  let s := if (s.seq c.pf).lat.stkFired then s
    else (fire (64 + 4 * c.pf + 2) 0 s).modSeq c.pf fun q => { q with lat := { q.lat with stkFired := true } }
  markFaulted c.pen.cfg.first s

/-- An undefined encoding: ILLEGAL once in a stage, the ILLSTAT record, the pen FAULTED (R129, R131, R132). -/
def raiseIllegal (c : Ictx) (kind : Nat) (pc : BitVec 14) (s : State) : State :=
  let s := if (s.seq c.pf).lat.illFired then s
    else (fire (64 + 4 * c.pf) 0 s).modSeq c.pf fun q => { q with lat := { q.lat with illFired := true } }
  let r := at32 (c.pen.stage % 16) 27 ||| at32 (kind % 8) 24 ||| at32 pc.toNat 0
  let s := if bit (s.reg .illstat c.pf) 31 then s.raiseAgain .illstat c.pf (r ||| bit32 true 31)
    else (s.setReg .illstat c.pf 0 r).raise .illstat c.pf (bit32 true 31)
  markFaulted c.pen.cfg.first s

/-- A repeat after one repetition: the next one, or its end (R111, R113, R31). -/
def Rep.next (r : Rep) (now cost : Nat) : Option Rep :=
  let r' := { r.spend now cost with left := r.left - 1, i := r.i + 1 }
  if r.left ≤ 1 || !(r'.fits now cost) then none else some r'

/-- Step the program counter past an instruction, or stay on it while a repeat goes on (R111, R133). -/
def stepPc (words now cost : Nat) (q : Seq) : Seq :=
  match q.rep with
  | none => { q with pc := q.pc + BitVec.ofNat 14 words }
  | some r =>
    match r.next now cost with
    | none => { q with rep := none, pc := q.pc + BitVec.ofNat 14 words }
    | some r' => { q with rep := some r' }

/-- Count a run-ahead instruction; a repeat prefix does not count (R159). -/
def countRa (c : Ictx) (k : Uk) (q : Seq) : Seq :=
  if c.seq.ra.isSome && k != .rep then
    { q with ra := q.ra.map fun x => { x with count := x.count + 1 } }
  else q

/-- The pen of a finished stopped repeat stops issuing (R31). -/
def endStopped (c : Ictx) (s : State) : State :=
  if c.pen.stopped && (s.seq c.pf).rep.isNone then s.modPen c.pen.cfg.first fun p => { p with run := false } else s

/-- An issued instruction: the program counter steps, the body acts when the instruction executes, the load before it
lands, run-ahead counts it. -/
def issueBody (c : Ictx) (k : Uk) (words : Nat) (executes : Bool) (body : Ictx → State → State) (s : State) : State :=
  let cost := issueCost s c k
  let s := s.modSeq c.pf fun q => countRa c k (stepPc words s.frame.cycle cost { q with load := none })
  let s := if executes then body c s else s
  endStopped c (landLoad c.pf c.seq.load c.seq.ra.isNone s)

/-- The 0 that an undefined read whose condition holds gives its register (R129). -/
def zeroRead (c : Ictx) (reads : Option (BitVec 2 × Fin 8)) : Option (Fin 8 × Half) :=
  match reads with
  | none => none
  | some (x, r) => if condHolds x c.seq then some (r, 0) else none

/-- The repeat of a stopped pen is abandoned, and the pen issues no more (R31, R115). -/
def abandonRepeat (c : Ictx) (s : State) : State := endStopped c (s.modSeq c.pf fun q => { q with rep := none })

/-- A CTRL or EXT instruction under a repeat prefix: the prefix and the instruction are one undefined encoding, and
nothing is repeated; a GIN whose condition holds loads 0 (R112, R129, R130). -/
def forbiddenRepeat (c : Ictx) (r : Rep) (words : Nat) (reads : Option (BitVec 2 × Fin 8)) (s : State) : State :=
  let s := s.modSeq c.pf fun q => { q with rep := none, load := zeroRead c reads, pc := q.pc + BitVec.ofNat 14 words }
  endStopped c (landLoad c.pf c.seq.load c.seq.ra.isNone (raiseIllegal c 1 r.start s))

/-- Whether an instruction executes under its condition, if it has one (R93, R95). -/
def executesNow (cond : Option (BitVec 2)) (q : Seq) : Bool :=
  match cond with
  | none => true
  | some x => condHolds x q

/-- Issue one instruction of a pen: nothing when the pen cannot issue; held when run-ahead or a unit holds it; otherwise
its body when its condition holds (R94, R95). `cond` is none for a PE class, which always occupies its cycle (R93); `reads` is the
condition and the register of a GIN, which loads 0 where a repeat prefix makes it undefined (R112, R129). -/
def issue (first : Nat) (k : Uk) (words : Nat) (cond : Option (BitVec 2)) (body : Ictx → State → State)
    (s : State) (reads : Option (BitVec 2 × Fin 8) := none) : State :=
  match penIssue s first with
  | none => s
  | some c =>
    let executes := executesNow cond c.seq
    match c.seq.rep with
    | some r =>
      if !k.repeatable then
        if c.seq.ra.isSome then holdIssue c s else forbiddenRepeat c r words reads s
      else if !(r.fits s.frame.cycle (issueCost s c k)) then abandonRepeat c s
      else if raHolds s c k executes || unitHolds s c k executes then holdIssue c s
      else issueBody c k words executes body s
    | none =>
      if raHolds s c k executes || unitHolds s c k executes then holdIssue c s
      else issueBody c k words executes body s

/-- An undefined encoding issues: nothing but ILLEGAL and FAULTED, whatever the condition, and 0 into the register of an
undefined read whose condition holds: that of a GIN lands as a load does (R95, R121, R122, R129). -/
def issueUndefined (first : Nat) (k : Uk) (words kind : Nat) (reads : Option (BitVec 2 × Fin 8)) (s : State) : State :=
  issue first k words none (fun c s =>
    let s := match zeroRead c reads with
      | none => s
      | some x => if words = 1 then setSreg c.pf x.1 0 s else s.modSeq c.pf fun q => { q with load := some x }
    raiseIllegal c kind c.seq.pc s) s reads

/-- Do something in every live member of the pen, in one cycle (R402). -/
def eachLive (c : Ictx) (g : Nat → State → State) (s : State) : State := inOneCycle (forFolds (s.liveFolds c.pen) g) s

end Sys2Proof.Machine
end

