-- ==== Sys2Proof/Machine/Pe.lean ====
section
/-! DEFINITION. The PE classes: BITOP, MOVE, FLAG and NEIGH (R53 to R71, R134 to R137). -/

namespace Sys2Proof.Machine

/-- A command's effect that always goes on. -/
abbrev Out := Host.Outcome State Fault Refusal

/-- Change the PE registers of a fold. -/
def modPe (pf : Nat) (g : PeRegs → PeRegs) (s : State) : State := s.modFold pf fun f => { f with pe := g f.pe }

/-- A BITOP in one fold: W and C of the enabled PEs (R56, R134). -/
def bitopFold (fn : BitFn) (cond : BitVec 2) (a pf : Nat) (s : State) : State :=
  let (b, s) := readPlane pf a s
  modPe pf (fun r =>
    let en := enabledPes cond r
    { r with w := blend en (fn.newW r.w b r.c r.t) r.w, c := blend en (fn.newC r.w b r.c) r.c }) s

/-- A BITOP (R134). -/
def bitop (fn : BitFn) (p : Nat) (cond : BitVec 2) (off : BitVec 6) (s : State) : State :=
  issue p (.read off) 1 none (fun c s => eachLive c (bitopFold fn cond (windowAddr c.seq off)) s) s

/-- LD and LDN in one fold: W of the enabled PEs (R135). -/
def loadFold (neg : Bool) (cond : BitVec 2) (a pf : Nat) (s : State) : State :=
  let (b, s) := readPlane pf a s
  modPe pf (fun r => { r with w := blend (enabledPes cond r) (if neg then ~~~b else b) r.w }) s

/-- LD and LDN (R135). -/
def loadOp (neg : Bool) (p : Nat) (cond : BitVec 2) (off : BitVec 6) (s : State) : State :=
  issue p (.read off) 1 none (fun c s => eachLive c (loadFold neg cond (windowAddr c.seq off)) s) s

/-- ST and STC in one fold: the plane's bits of the enabled PEs (R135). -/
def storeFold (carry : Bool) (cond : BitVec 2) (a pf : Nat) (s : State) : State :=
  let r := (s.fold pf).pe
  writePlane pf a (enabledPes cond r) (if carry then r.c else r.w) s

/-- ST and STC (R135). -/
def storeOp (carry : Bool) (p : Nat) (cond : BitVec 2) (off : BitVec 6) (s : State) : State :=
  issue p (.store off) 1 none (fun c s => eachLive c (storeFold carry cond (windowAddr c.seq off)) s) s

/-- A FLAG in one fold: the target of the enabled PEs (R56, R136). -/
def flagFold (fn : FlagFn) (cond : BitVec 2) (tgt : FlagTgt) (src : FlagSrc) (latch : Bool) (pf : Nat)
    (s : State) : State :=
  modPe pf (fun r =>
    setTarget tgt (blend (enabledPes cond r) (fn.apply (flagTarget tgt r) (flagSource src latch r))
      (flagTarget tgt r)) r) s

/-- The only defined FLAG with target M: MOV of a constant under COND 0b00 (R99). -/
def flagMDefined (fn : FlagFn) (cond : BitVec 2) (src : FlagSrc) : Bool :=
  fn == .mov && cond == 0 && (src == .zero || src == .one)

/-- A FLAG other than SWAP (R98, R99, R136). -/
def flagOp (fn : FlagFn) (p : Nat) (cond : BitVec 2) (tgt : FlagTgt) (src : FlagSrc) (s : State) : State :=
  if tgt = .m then
    if flagMDefined fn cond src then
      issue p (.flag false true) 1 none (fun c s => s.modSeq c.pf fun q => { q with latch := src == .one }) s
    else issueUndefined p .undef 1 0 none s
  else
    issue p (.flag (flagWritesX tgt src false) false) 1 none
      (fun c s => eachLive c (flagFold fn cond tgt src c.seq.latchSeen) s) s

/-- A SWAP in one fold: both registers of the enabled PEs (R136). -/
def swapFold (cond : BitVec 2) (tgt other : FlagTgt) (pf : Nat) (s : State) : State :=
  modPe pf (fun r =>
    let en := enabledPes cond r
    let a := flagTarget tgt r
    let b := flagTarget other r
    setTarget other (blend en a b) (setTarget tgt (blend en b a) r)) s

/-- FLAG SWAP: defined with a PE register as its source, and not with target M (R99, R136). -/
def swapOp (p : Nat) (cond : BitVec 2) (tgt : FlagTgt) (src : FlagSrc) (s : State) : State :=
  match swapSource src with
  | none => issueUndefined p .undef 1 0 none s
  | some o =>
    if tgt = .m then issueUndefined p .undef 1 0 none s
    else issue p (.flag (flagWritesX tgt src true) false) 1 none (fun c s => eachLive c (swapFold cond tgt o) s) s

/-- The live members of a pen with their logical folds. -/
def livePairs (s : State) (p : Pen) : List (Nat × Nat) :=
  (p.members.filterMap fun lf => (s.pfOf lf).map fun pf => (lf, pf)).filter fun x =>
    (s.fold x.2).power == .on && !(s.fold x.2).lost

/-- NEIGH: every PE drives its X, each enabled PE replaces its own; all sample before any writes (R60, R137). -/
def neighOp (p : Nat) (cond : BitVec 2) (dir : NeighDir) (edge : EdgeFill) (s : State) : State :=
  issue p (.neigh dir) 1 none (fun c s =>
    let recv := (livePairs s c.pen).map fun x => (x.2, neighBits s c.pen c.seq dir edge x.1 x.2)
    recv.foldl (fun s x => modPe x.1 (fun r => { r with x := blend (enabledPes cond r) x.2 r.x }) s) s) s

/-- BITOP_AND (R134). -/
def execBitopAnd (p : Fin 256) (cond : BitVec 2) (off : BitVec 6) (s : State) : Out :=
  .next (bitop .and p cond off s)

/-- BITOP_OR (R134). -/
def execBitopOr (p : Fin 256) (cond : BitVec 2) (off : BitVec 6) (s : State) : Out :=
  .next (bitop .or p cond off s)

/-- BITOP_XOR (R134). -/
def execBitopXor (p : Fin 256) (cond : BitVec 2) (off : BitVec 6) (s : State) : Out :=
  .next (bitop .xor p cond off s)

/-- BITOP_ADD (R134). -/
def execBitopAdd (p : Fin 256) (cond : BitVec 2) (off : BitVec 6) (s : State) : Out :=
  .next (bitop .add p cond off s)

/-- BITOP_SUB (R134). -/
def execBitopSub (p : Fin 256) (cond : BitVec 2) (off : BitVec 6) (s : State) : Out :=
  .next (bitop .sub p cond off s)

/-- BITOP_ANDN (R134). -/
def execBitopAndn (p : Fin 256) (cond : BitVec 2) (off : BitVec 6) (s : State) : Out :=
  .next (bitop .andn p cond off s)

/-- BITOP_MUX (R134). -/
def execBitopMux (p : Fin 256) (cond : BitVec 2) (off : BitVec 6) (s : State) : Out :=
  .next (bitop .mux p cond off s)

/-- CMPB (R134). -/
def execCmpb (p : Fin 256) (cond : BitVec 2) (off : BitVec 6) (s : State) : Out :=
  .next (bitop .cmpb p cond off s)

/-- LD (R135). -/
def execLd (p : Fin 256) (cond : BitVec 2) (off : BitVec 6) (s : State) : Out :=
  .next (loadOp false p cond off s)

/-- ST (R135). -/
def execSt (p : Fin 256) (cond : BitVec 2) (off : BitVec 6) (s : State) : Out :=
  .next (storeOp false p cond off s)

/-- LDN (R135). -/
def execLdn (p : Fin 256) (cond : BitVec 2) (off : BitVec 6) (s : State) : Out :=
  .next (loadOp true p cond off s)

/-- STC (R135). -/
def execStc (p : Fin 256) (cond : BitVec 2) (off : BitVec 6) (s : State) : Out :=
  .next (storeOp true p cond off s)

/-- FLAG_MOV (R136). -/
def execFlagMov (p : Fin 256) (cond : BitVec 2) (tgt : FlagTgt) (src : FlagSrc) (s : State) : Out :=
  .next (flagOp .mov p cond tgt src s)

/-- FLAG_AND (R136). -/
def execFlagAnd (p : Fin 256) (cond : BitVec 2) (tgt : FlagTgt) (src : FlagSrc) (s : State) : Out :=
  .next (flagOp .and p cond tgt src s)

/-- FLAG_OR (R136). -/
def execFlagOr (p : Fin 256) (cond : BitVec 2) (tgt : FlagTgt) (src : FlagSrc) (s : State) : Out :=
  .next (flagOp .or p cond tgt src s)

/-- FLAG_XOR (R136). -/
def execFlagXor (p : Fin 256) (cond : BitVec 2) (tgt : FlagTgt) (src : FlagSrc) (s : State) : Out :=
  .next (flagOp .xor p cond tgt src s)

/-- FLAG_ANDN (R136). -/
def execFlagAndn (p : Fin 256) (cond : BitVec 2) (tgt : FlagTgt) (src : FlagSrc) (s : State) : Out :=
  .next (flagOp .andn p cond tgt src s)

/-- FLAG_MOVN (R136). -/
def execFlagMovn (p : Fin 256) (cond : BitVec 2) (tgt : FlagTgt) (src : FlagSrc) (s : State) : Out :=
  .next (flagOp .movn p cond tgt src s)

/-- FLAG_SWAP (R136). -/
def execFlagSwap (p : Fin 256) (cond : BitVec 2) (tgt : FlagTgt) (src : FlagSrc) (s : State) : Out :=
  .next (swapOp p cond tgt src s)

/-- NEIGH (R60, R137). -/
def execNeigh (p : Fin 256) (cond : BitVec 2) (dir : NeighDir) (edge : EdgeFill) (s : State) : Out :=
  .next (neighOp p cond dir edge s)

end Sys2Proof.Machine
end

