-- ==== Sys2Proof/Machine/Scalar.lean ====
section
/-! DEFINITION. SEQ, the fold-local and global IO registers, immediates and D-space (R116, R121 to R128, R138, R139). -/

namespace Sys2Proof.Machine

/-- The operations of SEQ (R138). -/
inductive SeqFn
  | add | sub | and | or | xor | mov | cmpeq | cmplt
  deriving DecidableEq, Repr

/-- Sd after a SEQ (R138): arithmetic modulo 2^16, CMPLT signed. -/
def SeqFn.apply (f : SeqFn) (d r : Half) : Half :=
  match f with
  | .add => d + r
  | .sub => d - r
  | .and => d &&& r
  | .or => d ||| r
  | .xor => d ^^^ r
  | .mov => r
  | .cmpeq => if d = r then 1 else 0
  | .cmplt => if d.slt r then 1 else 0

/-- A SEQ (R138). -/
def seqOp (f : SeqFn) (p : Nat) (cond : BitVec 2) (d r : Fin 8) (s : State) : State :=
  issue p .seq 1 (some cond) (fun c s => setSreg c.pf d (f.apply c.seq.core.s[d] c.seq.core.s[r]) s) s

/-! ### Fold-local IO (R124 to R127) -/

/-- The value an IO read of a defined address returns (R125). -/
def ioValue (s : State) (c : Ictx) (a : Nat) : Half :=
  let q := c.seq
  if a < 16 then
    if a % 4 = 0 then (q.mr[a / 4 % 4]!).extractLsb' 0 16
    else (q.lat.mrLatch[a / 4 % 4]!).extractLsb' (16 * (a % 4)) 16
  else if a = 0x10 then BitVec.ofNat 16 (q.mrPend.toNat * 16 + q.mrReady.toNat)
  else if a = 0x11 then BitVec.ofNat 16 q.tally.toNat
  else if a = 0x12 then q.lat.tallyHi
  else if a = 0x13 then BitVec.ofNat 16 (4 * q.ra.isSome.toNat + 2 * q.red.isSome.toNat + q.latch.toNat)
  else if a = 0x14 then BitVec.ofNat 16 q.core.wb.toNat
  else if a = 0x15 then BitVec.ofNat 16 q.core.depth
  else if a = 0x16 then BitVec.ofNat 16 (min s.frame.cycle (2 ^ 31 - 1))
  else if a = 0x17 then q.lat.cycleHi
  else if a = 0x18 then BitVec.ofNat 16 c.pen.stage
  else if a = 0x19 then BitVec.ofNat 16 c.pen.cfg.first
  else if a = 0x1A then BitVec.ofNat 16 c.pen.cfg.count
  else BitVec.ofNat 16 c.pen.cfg.width

/-- The read latches an IO read fills (R126). -/
def ioLatch (s : State) (a : Nat) (q : Seq) : Seq :=
  if a < 16 && a % 4 = 0 then
    { q with lat := { q.lat with mrLatch := q.lat.mrLatch.set! (a / 4 % 4) (q.mr[a / 4 % 4]!) } }
  else if a = 0x11 then { q with lat := { q.lat with tallyHi := BitVec.ofNat 16 (q.tally.toNat / 65536) } }
  else if a = 0x16 then
    { q with lat := { q.lat with cycleHi := BitVec.ofNat 16 (min s.frame.cycle (2 ^ 31 - 1) / 65536) } }
  else q

/-- IO_READ: addresses 0x1C to 0x1F are undefined and read 0 (R125, R129, R130). -/
def ioRead (p : Nat) (cond : BitVec 2) (r : Fin 8) (addr : BitVec 5) (s : State) : State :=
  if 0x1C ≤ addr.toNat then issueUndefined p .undef 1 2 (some (cond, r)) s
  else
    issue p .io 1 (some cond) (fun c s =>
      let v := ioValue s c addr.toNat
      setSreg c.pf r v (s.modSeq c.pf (ioLatch s addr.toNat))) s

/-- IO_WRITE: WB is the one writable address (R102, R125, R130). -/
def ioWrite (p : Nat) (cond : BitVec 2) (r : Fin 8) (addr : BitVec 5) (s : State) : State :=
  if addr.toNat ≠ 0x14 then issueUndefined p .undef 1 2 none s
  else
    issue p .io 1 (some cond) (fun c s =>
      s.modSeq c.pf fun q => { q with core := { q.core with wb := (c.seq.core.s[r]).setWidth 11 } }) s

/-! ### Global IO (R128) -/

/-- Whether a global address is defined (R128). -/
def ginDefined (a : Nat) : Bool := a ≤ 3 || (0x10 ≤ a && a ≤ 0x40)

/-- A lane. -/
def State.lane (s : State) (l : Nat) : Lane := Store.get s.lanes {} l

/-- The value GIN returns (R128). -/
def ginValue (s : State) (c : Ictx) (a : Nat) : Half :=
  if a = 0 then s.frame.epoch.extractLsb' 0 16
  else if a = 1 then c.seq.lat.epoch1
  else if a = 2 then c.seq.lat.epoch2
  else if a = 3 then BitVec.ofNat 16 (2 * c.pen.restored.toNat + (bit s.frame.epoch 0).toNat)
  else if a < 0x20 then
    BitVec.ofNat 16 (s.rf .latemap ((a - 0x10) / 2) (16 * (a % 2) + 15) (16 * (a % 2)))
  else if a < 0x40 then (s.lane (a - 0x20)).ingCount
  else c.seq.lat.mark

/-- GIN: the register is written after the next instruction; EPOCH0 latches EPOCH1 and EPOCH2 (R121, R128). -/
def ginOp (p : Nat) (cond : BitVec 2) (r : Fin 8) (addr : BitVec 8) (s : State) : State :=
  if !(ginDefined addr.toNat) then issueUndefined p .undefCtl 2 3 (some (cond, r)) s
  else
    issue p (if addr = 0 then .held else .ext) 2 (some cond) (fun c s =>
      let v := ginValue s c addr.toNat
      s.modSeq c.pf fun q =>
        { q with load := some (r, v)
                 lat := if addr = 0 then
                     { q.lat with epoch1 := s.frame.epoch.extractLsb' 16 16
                                  epoch2 := s.frame.epoch.extractLsb' 32 16 }
                   else q.lat }) s (some (cond, r))

/-- GOUT: MARK is the one writable address; the write goes to the marker bus with the writer's fold (R128, R139). -/
def goutOp (p : Nat) (cond : BitVec 2) (r : Fin 8) (addr : BitVec 8) (s : State) : State :=
  if addr.toNat ≠ 0x40 then issueUndefined p .undefCtl 2 3 none s
  else
    issue p .held 2 (some cond) (fun c s =>
      let v := c.seq.core.s[r]
      let s := s.modSeq c.pf fun q => { q with lat := { q.lat with mark := v } }
      probeMark c.pf v { s with edge := { s.edge with marks := v :: s.edge.marks } }) s

/-! ### Immediates and D-space (R116, R121 to R123) -/

/-- LDI, LDIN, LDIH and ADDI: a new value of S from its old one (R116, R139). -/
def immOp (p : Nat) (cond : BitVec 2) (r : Fin 8) (f : Half → Half) (s : State) : State :=
  issue p .ext 2 (some cond) (fun c s => setSreg c.pf r (f c.seq.core.s[r]) s) s

/-- The D-space address of a DLD or DST: direct, or indexed by S5 (R116). -/
def dAddr (c : Ictx) (indexed : Bool) (addr : BitVec 12) : Nat :=
  if indexed then (addr.toNat + (c.seq.core.s[5]).toNat) % 4096 else addr.toNat

/-- DLD: the register is written after the next instruction (R121). -/
def dldOp (p : Nat) (cond : BitVec 2) (r : Fin 8) (indexed : Bool) (addr : BitVec 12) (s : State) : State :=
  issue p .ext 2 (some cond) (fun c s =>
    let v := s.dword c.pf (dAddr c indexed addr)
    s.modSeq c.pf fun q => { q with load := some (r, v) }) s

/-- DST: the word in every member's D-space (R66, R123). -/
def dstOp (p : Nat) (cond : BitVec 2) (r : Fin 8) (indexed : Bool) (addr : BitVec 12) (s : State) : State :=
  issue p .held 2 (some cond) (fun c s =>
    eachLive c (fun pf s => s.setDword pf (dAddr c indexed addr) c.seq.core.s[r]) s) s

/-- SeqAdd (R138). -/
def execSeqAdd (p : Fin 256) (cond : BitVec 2) (d r : Fin 8) (s : State) : Out :=
  .next (seqOp .add p cond d r s)

/-- SeqSub (R138). -/
def execSeqSub (p : Fin 256) (cond : BitVec 2) (d r : Fin 8) (s : State) : Out :=
  .next (seqOp .sub p cond d r s)

/-- SeqAnd (R138). -/
def execSeqAnd (p : Fin 256) (cond : BitVec 2) (d r : Fin 8) (s : State) : Out :=
  .next (seqOp .and p cond d r s)

/-- SeqOr (R138). -/
def execSeqOr (p : Fin 256) (cond : BitVec 2) (d r : Fin 8) (s : State) : Out :=
  .next (seqOp .or p cond d r s)

/-- SeqXor (R138). -/
def execSeqXor (p : Fin 256) (cond : BitVec 2) (d r : Fin 8) (s : State) : Out :=
  .next (seqOp .xor p cond d r s)

/-- SeqMov (R138). -/
def execSeqMov (p : Fin 256) (cond : BitVec 2) (d r : Fin 8) (s : State) : Out :=
  .next (seqOp .mov p cond d r s)

/-- Cmpeq (R138). -/
def execCmpeq (p : Fin 256) (cond : BitVec 2) (d r : Fin 8) (s : State) : Out :=
  .next (seqOp .cmpeq p cond d r s)

/-- Cmplt (R138). -/
def execCmplt (p : Fin 256) (cond : BitVec 2) (d r : Fin 8) (s : State) : Out :=
  .next (seqOp .cmplt p cond d r s)

/-- IO_READ (R124). -/
def execIoRead (p : Fin 256) (cond : BitVec 2) (r : Fin 8) (addr : BitVec 5) (s : State) : Out :=
  .next (ioRead p cond r addr s)

/-- IO_WRITE (R124). -/
def execIoWrite (p : Fin 256) (cond : BitVec 2) (r : Fin 8) (addr : BitVec 5) (s : State) : Out :=
  .next (ioWrite p cond r addr s)

/-- LDI: zero-extended (R116). -/
def execLdi (p : Fin 256) (cond : BitVec 2) (r : Fin 8) (imm : BitVec 14) (s : State) : Out :=
  .next (immOp p cond r (fun _ => imm.setWidth 16) s)

/-- LDIN: sign-extended (R116). -/
def execLdin (p : Fin 256) (cond : BitVec 2) (r : Fin 8) (imm : BitVec 14) (s : State) : Out :=
  .next (immOp p cond r (fun _ => imm.signExtend 16) s)

/-- LDIH: bits 15:14 alone (R116). -/
def execLdih (p : Fin 256) (cond : BitVec 2) (r : Fin 8) (value : BitVec 2) (s : State) : Out :=
  .next (immOp p cond r (fun v => setFld v 15 14 value.toNat) s)

/-- ADDI (R116). -/
def execAddi (p : Fin 256) (cond : BitVec 2) (r : Fin 8) (imm : BitVec 14) (s : State) : Out :=
  .next (immOp p cond r (fun v => v + imm.signExtend 16) s)

/-- DLD (R121). -/
def execDld (p : Fin 256) (cond : BitVec 2) (r : Fin 8) (indexed : Bool) (addr : BitVec 12) (s : State) : Out :=
  .next (dldOp p cond r indexed addr s)

/-- DST (R123). -/
def execDst (p : Fin 256) (cond : BitVec 2) (r : Fin 8) (indexed : Bool) (addr : BitVec 12) (s : State) : Out :=
  .next (dstOp p cond r indexed addr s)

/-- GIN (R121). -/
def execGin (p : Fin 256) (cond : BitVec 2) (r : Fin 8) (addr : BitVec 8) (s : State) : Out :=
  .next (ginOp p cond r addr s)

/-- GOUT (R139). -/
def execGout (p : Fin 256) (cond : BitVec 2) (r : Fin 8) (addr : BitVec 8) (s : State) : Out :=
  .next (goutOp p cond r addr s)

end Sys2Proof.Machine
end

