-- ==== Sys2Proof/Machine/ArrayDecode.lean ====
section
/-! DEFINITION. The 14-bit instruction words of the array: what each spells, and which are undefined (R88 to R99, R112,
R116, R119, R120, R129 to R132). -/

namespace Sys2Proof.Machine

/-- An undefined encoding: its KIND, how many words it and what it drags in take, the register an undefined read writes 0
to, and whether its class may not be repeated. -/
structure Undef where
  kind : Nat
  words : Nat
  reads : Option (BitVec 2 × Fin 8)
  ctl : Bool
  deriving DecidableEq, Repr

/-- What a word spells. -/
inductive Dec
  | instr (i : Instr) (words : Nat)
  | undef (u : Undef)
  deriving DecidableEq, Repr

/-- The CLASS field (R88). -/
def classOf (w : BitVec 14) : Nat := fld w 11 9

/-- How many words an instruction takes (R89). -/
def wordsOf (w : BitVec 14) : Nat :=
  if classOf w = 7 then 2
  else if classOf w = 5 && (fld w 8 6 = 3 || fld w 8 6 = 5) then 2 else 1

/-- A three-bit field as a scalar register. -/
def sregOf (x : Nat) : Fin 8 := ⟨x % 8, Nat.mod_lt _ (by decide)⟩

/-- A FLAG target code (R98). -/
def flagTgtOf : Nat → Option FlagTgt
  | 0 => some .w | 1 => some .c | 2 => some .a | 3 => some .t | 4 => some .x | 5 => some .m | _ => none

/-- A FLAG source code (R98). -/
def flagSrcOf : Nat → FlagSrc
  | 0 => .w | 1 => .c | 2 => .a | 3 => .t | 4 => .x | 5 => .m | 6 => .zero | _ => .one

/-- A NEIGH direction code (R97). -/
def neighDirOf : Nat → NeighDir
  | 0 => .n | 1 => .e | 2 => .s | 3 => .w | 4 => .longN | 5 => .longE | 6 => .bcast | _ => .ingest

/-- The undefined encodings of KIND 0b000. -/
def plainUndef (w : BitVec 14) : Dec := .undef ⟨0, wordsOf w, none, classOf w = 5 || classOf w = 7⟩

/-- BITOP (R97). -/
def decBitop (p : Fin 256) (w : BitVec 14) : Dec :=
  let c : BitVec 2 := w.extractLsb' 12 2
  let o : BitVec 6 := w.extractLsb' 0 6
  .instr (match fld w 8 6 with
    | 0 => .bitopAnd p c o
    | 1 => .bitopOr p c o
    | 2 => .bitopXor p c o
    | 3 => .bitopAdd p c o
    | 4 => .bitopSub p c o
    | 5 => .bitopAndn p c o
    | 6 => .bitopMux p c o
    | _ => .cmpb p c o) 1

/-- MOVE (R97): bit 6 must be 0. -/
def decMove (p : Fin 256) (w : BitVec 14) : Dec :=
  let c : BitVec 2 := w.extractLsb' 12 2
  let o : BitVec 6 := w.extractLsb' 0 6
  if bit w 6 then plainUndef w
  else .instr (match fld w 8 7 with
    | 0 => .ld p c o
    | 1 => .st p c o
    | 2 => .ldn p c o
    | _ => .stc p c o) 1

/-- FLAG (R98, R99). -/
def decFlag (p : Fin 256) (w : BitVec 14) : Dec :=
  let c : BitVec 2 := w.extractLsb' 12 2
  let src := flagSrcOf (fld w 5 3)
  match flagTgtOf (fld w 8 6) with
  | none => plainUndef w
  | some t =>
    if t = .m && !(fld w 2 0 = 0 && flagMDefined .mov c src) then plainUndef w
    else if fld w 2 0 = 6 && (swapSource src).isNone then plainUndef w
    else match fld w 2 0 with
      | 0 => .instr (.flagMov p c t src) 1
      | 1 => .instr (.flagAnd p c t src) 1
      | 2 => .instr (.flagOr p c t src) 1
      | 3 => .instr (.flagXor p c t src) 1
      | 4 => .instr (.flagAndn p c t src) 1
      | 5 => .instr (.flagMovn p c t src) 1
      | 6 => .instr (.flagSwap p c t src) 1
      | _ => plainUndef w

/-- NEIGH (R97): EDGE 0b11 and bits 3:0 are reserved. -/
def decNeigh (p : Fin 256) (w : BitVec 14) : Dec :=
  let c : BitVec 2 := w.extractLsb' 12 2
  let d := neighDirOf (fld w 8 6)
  if fld w 3 0 ≠ 0 then plainUndef w
  else match fld w 5 4 with
    | 0 => .instr (.neigh p c d .zero) 1
    | 1 => .instr (.neigh p c d .one) 1
    | 2 => .instr (.neigh p c d .wrap) 1
    | _ => plainUndef w

/-- SEQ (R97). -/
def decSeq (p : Fin 256) (w : BitVec 14) : Dec :=
  let c : BitVec 2 := w.extractLsb' 12 2
  let d := sregOf (fld w 5 3)
  let r := sregOf (fld w 2 0)
  .instr (match fld w 8 6 with
    | 0 => .seqAdd p c d r
    | 1 => .seqSub p c d r
    | 2 => .seqAnd p c d r
    | 3 => .seqOr p c d r
    | 4 => .seqXor p c d r
    | 5 => .seqMov p c d r
    | 6 => .cmpeq p c d r
    | _ => .cmplt p c d r) 1

/-- A CTRL or EXT instruction `nx` after a repeat prefix of `len` words: both are undefined, and a GIN reads 0 (R112, R129). -/
def undefRepeat (len : Nat) (nx : BitVec 14) : Dec :=
  .undef ⟨1, len + wordsOf nx, if classOf nx = 7 && fld nx 8 3 = 7 then some (nx.extractLsb' 12 2, sregOf (fld nx 2 0)) else none, true⟩

/-- A repeat prefix of `len` words before the word `nx`: a CTRL or EXT target makes both undefined (R112). -/
def decPrefix (i : Instr) (len : Nat) (nx : BitVec 14) : Dec :=
  if classOf nx = 5 || classOf nx = 7 then undefRepeat len nx else .instr i len

/-- CTRL (R97, R107, R109, R110). -/
def decCtrl (p : Fin 256) (w w1 : BitVec 14) : Dec :=
  let c : BitVec 2 := w.extractLsb' 12 2
  let a : BitVec 6 := w.extractLsb' 0 6
  match fld w 8 6 with
  | 0 => decPrefix (.repu p c a) 1 w1
  | 1 => decPrefix (.repd p c a) 1 w1
  | 2 => decPrefix (.repui p c a) 1 w1
  | 3 => .instr (.call p c a w1) 2
  | 4 => if a = 0 then .instr (.ret p c) 1 else plainUndef w
  | 5 => if a = 0 then .instr (.br p c w1) 2 else plainUndef w
  | 6 => if a = 0 then .instr (.muster p c) 1 else if a = 1 then .instr (.tally p c) 1 else plainUndef w
  | _ => match a.toNat with
    | 0 => .instr (.nop p c) 1
    | 1 => .instr (.yield p c) 1
    | 2 => .instr (.waitm p c) 1
    | 3 => .instr (.specPredict0 p c) 1
    | 4 => .instr (.specPredict1 p c) 1
    | 5 => .instr (.halt p c) 1
    | _ => plainUndef w

/-- IO (R97, R125). -/
def decIo (p : Fin 256) (w : BitVec 14) : Dec :=
  let c : BitVec 2 := w.extractLsb' 12 2
  let r := sregOf (fld w 7 5)
  let a : BitVec 5 := w.extractLsb' 0 5
  if bit w 8 then
    if a.toNat = 0x14 then .instr (.ioWrite p c r a) 1 else .undef ⟨2, 1, none, false⟩
  else if 0x1C ≤ a.toNat then .undef ⟨2, 1, some (c, r), false⟩
  else .instr (.ioRead p c r a) 1

/-- EXT (R116, R119, R120). `w1` is the payload, `w2` the word after it. -/
def decExt (p : Fin 256) (w w1 w2 : BitVec 14) : Dec :=
  let c : BitVec 2 := w.extractLsb' 12 2
  let r := sregOf (fld w 2 0)
  let bad : Dec := plainUndef w
  match fld w 8 3 with
  | 0x00 => .instr (.ldi p c r w1) 2
  | 0x01 => .instr (.ldin p c r w1) 2
  | 0x02 => if fld w1 13 2 = 0 then .instr (.ldih p c r (w1.extractLsb' 0 2)) 2 else bad
  | 0x03 => .instr (.addi p c r w1) 2
  | 0x04 => if bit w1 13 then bad else .instr (.dld p c r (bit w1 12) (w1.extractLsb' 0 12)) 2
  | 0x05 => if bit w1 13 then bad else .instr (.dst p c r (bit w1 12) (w1.extractLsb' 0 12)) 2
  | 0x06 =>
    if classOf w2 = 5 || classOf w2 = 7 then undefRepeat 2 w2
    else if fld w1 13 1 = 0 then .instr (.reps p c r (bit w1 0)) 2 else bad
  | 0x07 =>
    if fld w1 13 8 ≠ 0 then .undef ⟨0, 2, some (c, r), true⟩
    else if ginDefined (fld w1 7 0) then .instr (.gin p c r (w1.extractLsb' 0 8)) 2
    else .undef ⟨3, 2, some (c, r), true⟩
  | 0x08 =>
    if fld w1 13 8 ≠ 0 then bad
    else if fld w1 7 0 = 0x40 then .instr (.gout p c r (w1.extractLsb' 0 8)) 2 else .undef ⟨3, 2, none, true⟩
  | 0x09 =>
    if bit w1 13 || fld w1 5 0 ≠ 0 then bad
    else .instr (.wego p c r ⟨fld w1 12 8 % 32, Nat.mod_lt _ (by decide)⟩ ⟨fld w1 7 6 % 4, Nat.mod_lt _ (by decide)⟩) 2
  | 0x0A => .instr (.planeOut p c r (w1.extractLsb' 6 8) (w1.extractLsb' 0 6)) 2
  | 0x0B => .instr (.planeIn p c r (w1.extractLsb' 6 8) (w1.extractLsb' 0 6)) 2
  | 0x0C =>
    if fld w1 8 6 ≠ 0 then bad
    else .instr (.histo p c r (w1.extractLsb' 10 4) (bit w1 9) (w1.extractLsb' 0 6)) 2
  | 0x0D => if fld w1 13 11 ≠ 0 || r ≠ 0 then bad else .instr (.ckpt p c (w1.extractLsb' 0 11)) 2
  | 0x0E =>
    if fld w1 13 2 ≠ 0 || r ≠ 0 then bad
    else match fld w1 1 0 with
      | 1 => .instr (.stkcfgEmpty p c) 2
      | 2 => .instr (.stkcfgDrop p c) 2
      | _ => bad
  | _ => bad

/-- The instruction that starts at `w`, with the two words after it (R88 to R99, R116, R130). -/
def decodeArray (p : Fin 256) (w w1 w2 : BitVec 14) : Dec :=
  match classOf w with
  | 0 => decBitop p w
  | 1 => decMove p w
  | 2 => decFlag p w
  | 3 => decNeigh p w
  | 4 => decSeq p w
  | 5 => decCtrl p w w1
  | 6 => decIo p w
  | _ => decExt p w w1 w2

/-- The command a pen's leader fetches next: the instruction in its I-space at its program counter (R90). -/
def nextCommand (s : State) (p : Fin 256) : Option Instr :=
  match s.penAt p with
  | none => none
  | some pen => match pen.leader with
    | none => none
    | some pf =>
      let a := (s.seq pf).pc.toNat
      match decodeArray p (s.iword pf a) (s.iword pf (a + 1)) (s.iword pf (a + 2)) with
      | .instr i _ => some i
      | .undef _ => some (.undefinedEncoding p (s.iword pf a) (s.iword pf (a + 1)) (s.iword pf (a + 2)))

end Sys2Proof.Machine
end

