-- ==== Sys2Proof/Machine/Control.lean ====
section
/-! DEFINITION. Repeats, calls, branches, reductions, run-ahead and SYS (R103 to R120, R150 to R170), the stop of a pen
(R30, R31, R168) and the faults of a sequencer (R77, R129). -/

namespace Sys2Proof.Machine

/-! ### Repeats -/

/-- A repeat prefix: the count, the direction and whether a stop may end it (R111, R115). A prefix whose condition is false is
skipped: the next instruction executes once, but with a CTRL or EXT instruction the prefix is an undefined encoding whatever
its condition (R95, R112, R129; log entry 114). -/
def repOp (p : Nat) (cond : BitVec 2) (words : Nat) (count : Ictx → Nat) (down intr : Bool) (s : State) : State :=
  issue p .rep words none (fun c s =>
    s.modSeq c.pf fun q =>
      { q with rep := some (if condHolds cond c.seq then ⟨c.seq.pc, count c, 0, down, intr, none⟩
                            else ⟨c.seq.pc, 1, 0, false, true, none⟩) }) s

/-! ### The return stack (R103 to R106, R120) -/

/-- Push an entry: the depth saturates at 16 (R104). -/
def SeqCore.push (c : SeqCore) (e : Ent) : SeqCore :=
  { c with stack := c.stack.set c.ptr e, ptr := c.ptr + 1, depth := min 16 (c.depth + 1) }

/-- Step the pointer back: the entry there, and the stack without it; the depth stays at 0 (R104, R105). -/
def SeqCore.pop (c : SeqCore) : Ent × SeqCore :=
  let q : Fin 16 := c.ptr - 1
  (c.stack[q], { c with ptr := q, depth := c.depth - 1 })

/-- An empty return stack: pointer and depth 0, the entries kept (R104). -/
def SeqCore.emptyStack (c : SeqCore) : SeqCore := { c with ptr := 0, depth := 0 }

/-- CALL (R103, R105). -/
def callOp (p : Nat) (cond : BitVec 2) (k : BitVec 6) (target : BitVec 14) (s : State) : State :=
  issue p .call 2 (some cond) (fun c s =>
    let trap := c.seq.core.depth = 16 && stkTrap s c.pf
    let s := s.modSeq c.pf fun q =>
      let core := if trap then q.core else q.core.push ⟨c.seq.pc + 2, c.seq.core.wb⟩
      { q with core := { core with wb := c.seq.core.wb + BitVec.ofNat 11 (8 * k.toNat) }, pc := target }
    if trap then raiseStack c s else s) s

/-- RET (R103, R105). -/
def retOp (p : Nat) (cond : BitVec 2) (s : State) : State :=
  issue p .ret 1 (some cond) (fun c s =>
    if c.seq.core.depth = 0 && stkTrap s c.pf then raiseStack c s
    else s.modSeq c.pf fun q =>
      let (e, core) := q.core.pop
      { q with core := { core with wb := e.wb }, pc := e.pc }) s

/-- STKCFG action 0b10: drop the top entry, PC and WB kept (R120). -/
def dropOp (p : Nat) (cond : BitVec 2) (s : State) : State :=
  issue p .drop 2 (some cond) (fun c s =>
    if c.seq.core.depth = 0 && stkTrap s c.pf then raiseStack c s
    else s.modSeq c.pf fun q => { q with core := q.core.pop.2 }) s

/-! ### Reductions (R150 to R156) -/

/-- The OR of W over the contributing PEs of the live members (R150). -/
def musterValue (s : State) (l : List Nat) : Bool :=
  l.any fun pf => (s.fold pf).pe.w &&& (s.fold pf).pe.a != 0

/-- The count of W over the contributing PEs of the live members (R150). -/
def tallyValue (s : State) (l : List Nat) : Nat :=
  l.foldl (fun n pf => n + popcount ((s.fold pf).pe.w &&& (s.fold pf).pe.a)) 0

/-- MSTR: the reduction is pending from this cycle, with the values its PEs hold now (R150, R151). -/
def mstrOp (tally : Bool) (p : Nat) (cond : BitVec 2) (s : State) : State :=
  issue p .mstr 1 (some cond) (fun c s =>
    let l := s.liveFolds c.pen
    let v := if tally then tallyValue s l else (musterValue s l).toNat
    s.modSeq c.pf fun q => { q with red := some ⟨tally, BitVec.ofNat 21 v⟩ }) s

/-! ### Run-ahead (R157 to R168) -/

/-- The snapshot of one fold: W, C, A, T and the confined range (R160). -/
def snapFold (s : State) (wb : BitVec 11) (pf : Nat) : FoldSnap :=
  let r := (s.fold pf).pe
  ⟨r.w, r.c, r.a, r.t, (List.range 32).map fun i => s.plane pf (wb.toNat + 32 + i)⟩

/-- Put a fold back to its snapshot; X stays (R162, R166). -/
def restoreFold (wb : BitVec 11) (pf : Nat) (f : FoldSnap) (s : State) : State :=
  let s := modPe pf (fun r => { r with w := f.w, c := f.c, a := f.a, t := f.t }) s
  (List.range 32).foldl (fun s i =>
    writePlane pf (wb.toNat + 32 + i) (BitVec.allOnes 4096) (f.planes.getD i 0) s) s

/-- The alternate target of a SPEC: a guarded BR after it gives the way not predicted, otherwise the next address
(R157). -/
def specAlt (s : State) (c : Ictx) (p : Bool) : BitVec 14 :=
  let a := c.seq.pc + 1
  let w := s.iword c.pf a.toNat
  if fld w 13 12 = 3 && classOf w = 5 && fld w 8 6 = 5 && fld w 5 0 = 0 then
    if p then a + 2 else s.iword c.pf (a + 1).toNat
  else a

/-- SPEC-predict-p: run-ahead when a reduction is pending; a stall when RADIS is 1; otherwise NOP (R155, R157, R170). -/
def specOp (v : Bool) (p : Nat) (cond : BitVec 2) (s : State) : State :=
  issue p .sys 1 (some cond) (fun c s =>
    if c.seq.red.isNone then s
    else if s.rf .racfg c.pf 0 0 = 1 then s.modSeq c.pf fun q => { q with stall := true }
    else
      let folds := (s.liveFolds c.pen).map fun pf => (pf, snapFold s c.seq.core.wb pf)
      let s := s.modSeq c.pf fun q => { q with ra := some ⟨v, specAlt s c v, 0, q.core, folds⟩ }
      s.count .racnt c.pf 31 16 1) s

/-- The mover gives up its speculative moves; a remote read in flight is cancelled by its tag (R165). -/
def dropSpeculative (pf : Nat) (s : State) : State :=
  let head := match (s.fold pf).moves with
    | m :: _ => m.spec
    | [] => false
  let s := s.modFold pf fun f => { f with moves := f.moves.filter fun m => !m.spec }
  if head then
    s.dw.tags.foldl (fun s x => match x.2 with
      | none => s
      | some h =>
        if h.pkt.unit = 0 && h.pkt.src.toNat = pf && h.pkt.type = 1 && !h.cancelled then
          let s := { s with dw := { s.dw with tags := Store.set s.dw.tags none x.1 (some { h with cancelled := true }) } }
          s.emit (.packet { net := .snp, type := 2, dst := h.pkt.dst, src := h.pkt.src, vc := 0, tag := h.pkt.tag })
        else s) s
  else s

/-- Undo run-ahead: PEs, confined range, scalars, stack and WB from the snapshot; the repeat and any load due are dropped
(R166). -/
def undoRunAhead (pf : Nat) (ra : RunAhead) (s : State) : State :=
  let s := ra.folds.foldl (fun s x => dropSpeculative x.1 (restoreFold ra.core.wb x.1 x.2 s)) s
  let s := s.modSeq pf fun q => { q with core := ra.core, rep := none, load := none, ra := none }
  s.count .racnt pf 15 0 1

/-- Commit: the speculative marks go, every run-ahead result stands (R165, R166). -/
def commitRunAhead (pf : Nat) (ra : RunAhead) (s : State) : State :=
  let s := ra.folds.foldl (fun s x => s.modFold x.1 fun f =>
    { f with moves := f.moves.map fun m => { m with spec := false } }) s
  s.modSeq pf fun q => { q with ra := none }

/-- Note that a check found a fold failed; the hub decides on it later (R442). -/
def foldFails (pf : Nat) (s : State) : State :=
  if s.arr.failed.contains pf then s else { s with arr := { s.arr with failed := s.arr.failed ++ [pf] } }

/-- A Muster-tree parity failure at a fold's tree node (R78, R516). -/
def treeParity (first pf : Nat) (s : State) : State :=
  if (s.fold pf).power != .on then s
  else foldFails pf (markFaulted first (faultFold pf (s.raise .faultstat pf 4#32)))

/-- Write a resolved reduction: the latch, and the tally register of a Tally (R96, R153). -/
def landReduction (pf : Nat) (r : Reduction) (s : State) : State :=
  s.modSeq pf fun q =>
    { q with latch := r.value != 0, tally := if r.tally then r.value else q.tally, red := none, stall := false }

/-- RESOLUTION of a pen's pending reduction (R152, R153, R166). -/
def resolve (p : Nat) (fault : Option (Fin 272)) (s : State) : State :=
  match s.penAt p with
  | none => s
  | some pen => match pen.leader with
    | none => s
    | some pf => match (s.seq pf).red with
      | none => s
      | some r =>
        let s := match fault with
          | none => s
          | some n => treeParity p n s
        let ra := (s.seq pf).ra
        let s := landReduction pf r s
        match ra with
        | none => s
        | some x =>
          if x.p = (r.value != 0) then commitRunAhead pf x s
          else (undoRunAhead pf x s).modSeq pf fun q => { q with cancel := some x.alt }

/-- CANCEL_END: back to NORMAL at the alternate target (R166). -/
def cancelEnd (p : Nat) (s : State) : State :=
  match s.penAt p with
  | none => s
  | some pen => match pen.leader with
    | none => s
    | some pf => s.modSeq pf fun q => match q.cancel with
      | none => q
      | some a => { q with cancel := none, pc := a }

/-! ### SYS -/

/-- WAITM: a stall until the pending reduction resolves; none pending, nothing (R155). -/
def waitOp (p : Nat) (cond : BitVec 2) (s : State) : State :=
  issue p .sys 1 (some cond) (fun c s =>
    if c.seq.red.isSome then s.modSeq c.pf fun q => { q with stall := true } else s) s

/-- YIELD: the pen idles until its next stage (R29). -/
def yieldOp (p : Nat) (cond : BitVec 2) (s : State) : State :=
  issue p .sys 1 (some cond) (fun c s =>
    s.modPen c.pen.cfg.first fun n => { n with run := false, yielded := n.yielded ++ [n.stage] }) s

/-- HALT: a YIELD for the current stage and for every later one (R109). -/
def haltOp (p : Nat) (cond : BitVec 2) (s : State) : State :=
  issue p .sys 1 (some cond) (fun c s =>
    s.modPen c.pen.cfg.first fun n =>
      { n with run := false, yielded := n.yielded ++ (List.range 16).filter fun k => n.stage ≤ k }) s

/-! ### Stops and faults -/

/-- Stop a pen for the rest of the frame (R30, R31, R101, R156, R168): run-ahead is cancelled and its restore takes the CANCEL
state as at a resolution; a non-interruptible repeat in NORMAL keeps 64 cycles for its repetitions, every other repeat ends; the
pending reduction is cancelled. -/
def stopPen (first : Nat) (keepRepeat : Bool) (s : State) : State :=
  match s.penAt first with
  | none => s
  | some pen =>
    let s := match pen.leader with
      | none => s
      | some pf =>
        let q := s.seq pf
        let s := match q.ra with
          | none => landLoad pf q.load true (s.modSeq pf fun q => { q with load := none })
          | some ra => (undoRunAhead pf ra s).modSeq pf fun q => { q with cancel := some ra.alt }
        s.modSeq pf fun q =>
          { q with red := none, stall := false
                   rep := match q.rep with
                     | none => none
                     | some r => if keepRepeat && !r.intr && pen.run then some { r with stop := some (s.frame.cycle, s.frame.cycle + 63) } else none }
    let going := match pen.leader with
      | none => false
      | some pf => (s.seq pf).rep.isSome
    s.modPen first fun n => { n with stopped := true, run := going }

/-- A lockstep mismatch (R77, R516): LOCK, FAULT, the sequencer issues nothing until the end of the frame, a repeat is
abandoned at once, the fold is failed. -/
def lockstep (pf : Nat) (s : State) : State :=
  if (s.fold pf).power != .on then s
  else
    let s := faultFold pf (s.raise .faultstat pf 2#32)
    foldFails pf (s.modSeq pf fun q => { q with dead := true, rep := none })

/-- An undefined encoding among the words at a pen's program counter; defined words do nothing (R129, R130). -/
def undefinedOp (p : Fin 256) (w0 w1 w2 : BitVec 14) (s : State) : State :=
  match decodeArray p w0 w1 w2 with
  | .instr _ _ => s
  | .undef u => issueUndefined p (if u.ctl then .undefCtl else .undef) u.words u.kind u.reads s

/-! ### The commands -/

/-- REPU (R111, R115). -/
def execRepu (p : Fin 256) (cond : BitVec 2) (arg : BitVec 6) (s : State) : Out :=
  .next (repOp p cond 1 (fun _ => arg.toNat + 1) false false s)

/-- REPD (R111, R115). -/
def execRepd (p : Fin 256) (cond : BitVec 2) (arg : BitVec 6) (s : State) : Out :=
  .next (repOp p cond 1 (fun _ => arg.toNat + 1) true false s)

/-- REPUI (R111, R115). -/
def execRepui (p : Fin 256) (cond : BitVec 2) (arg : BitVec 6) (s : State) : Out :=
  .next (repOp p cond 1 (fun _ => arg.toNat + 1) false true s)

/-- REPS: the count is bits 11:0 of S as REPS issues (R111, R115). -/
def execReps (p : Fin 256) (cond : BitVec 2) (r : Fin 8) (down : Bool) (s : State) : Out :=
  .next (repOp p cond 2 (fun c => c.seq.core.s[r].toNat % 4096 + 1) down true s)

/-- CALL (R103). -/
def execCall (p : Fin 256) (cond : BitVec 2) (k : BitVec 6) (target : BitVec 14) (s : State) : Out :=
  .next (callOp p cond k target s)

/-- RET (R103). -/
def execRet (p : Fin 256) (cond : BitVec 2) (s : State) : Out := .next (retOp p cond s)

/-- BR (R107). -/
def execBr (p : Fin 256) (cond : BitVec 2) (target : BitVec 14) (s : State) : Out :=
  .next (issue p .br 2 (some cond) (fun c s => s.modSeq c.pf fun q => { q with pc := target }) s)

/-- MUSTER (R150). -/
def execMuster (p : Fin 256) (cond : BitVec 2) (s : State) : Out := .next (mstrOp false p cond s)

/-- TALLY (R150). -/
def execTally (p : Fin 256) (cond : BitVec 2) (s : State) : Out := .next (mstrOp true p cond s)

/-- RESOLUTION (R152). -/
def execResolution (p : Fin 256) (treeFault : Option (Fin 272)) (s : State) : Out := .next (resolve p treeFault s)

/-- CANCEL_END (R166). -/
def execCancelEnd (p : Fin 256) (s : State) : Out := .next (cancelEnd p s)

/-- NOP (R109). -/
def execNop (p : Fin 256) (cond : BitVec 2) (s : State) : Out := .next (issue p .nop 1 (some cond) (fun _ s => s) s)

/-- YIELD (R29). -/
def execYield (p : Fin 256) (cond : BitVec 2) (s : State) : Out := .next (yieldOp p cond s)

/-- WAITM (R155). -/
def execWaitm (p : Fin 256) (cond : BitVec 2) (s : State) : Out := .next (waitOp p cond s)

/-- SPEC-predict-0 (R157). -/
def execSpecPredict0 (p : Fin 256) (cond : BitVec 2) (s : State) : Out := .next (specOp false p cond s)

/-- SPEC-predict-1 (R157). -/
def execSpecPredict1 (p : Fin 256) (cond : BitVec 2) (s : State) : Out := .next (specOp true p cond s)

/-- HALT (R109). -/
def execHalt (p : Fin 256) (cond : BitVec 2) (s : State) : Out := .next (haltOp p cond s)

/-- STKCFG, empty (R120). -/
def execStkcfgEmpty (p : Fin 256) (cond : BitVec 2) (s : State) : Out :=
  .next (issue p .ext 2 (some cond) (fun c s => s.modSeq c.pf fun q => { q with core := q.core.emptyStack }) s)

/-- STKCFG, drop (R120). -/
def execStkcfgDrop (p : Fin 256) (cond : BitVec 2) (s : State) : Out := .next (dropOp p cond s)

/-- UNDEFINED_ENCODING (R129). -/
def execUndefinedEncoding (p : Fin 256) (w0 w1 w2 : BitVec 14) (s : State) : Out := .next (undefinedOp p w0 w1 w2 s)

/-- LOCKSTEP_MISMATCH (R77). -/
def execLockstepMismatch (pf : Fin 272) (s : State) : Out := .next (lockstep pf s)

end Sys2Proof.Machine
end

