-- ==== Sys2Proof/Machine/Sched.lean ====
section
/-! DEFINITION. The schedule and the tables in force: stages, slot tables, bank reservations (R26 to R32, R257, R312 to
R316). -/

namespace Sys2Proof.Machine

/-- The frame period P (R5). -/
def State.period (s : State) : Nat := s.rf .period 0 30 0

/-- The first cycle of the guard band, G (R32). -/
def State.guard (s : State) : Nat := s.period - 1024

/-- The stages of the schedule in force. -/
def State.stages (s : State) : List Stage :=
  match s.ldr.inForce with
  | none => []
  | some f => f.stages

/-- The number and record of the last stage that starts at or before a cycle. -/
def stageAt (c k : Nat) : List Stage → Option (Nat × Stage)
  | [] => none
  | x :: t =>
    if x.start ≤ c then
      match stageAt c (k + 1) t with
      | none => some (k, x)
      | r => r
    else none

/-- The stage whose tables apply in the current cycle: from the first start to G + 959 (R257). -/
def State.slotStage (s : State) : Option (Nat × Stage) :=
  if s.frame.ticked && s.frame.cycle ≤ s.guard + 959 then stageAt s.frame.cycle 0 s.stages else none

/-- Whether a slot table applies (R257, R517). -/
def State.slotWindow (s : State) : Bool := s.slotStage.isSome

/-- The entry of a run list at an index (R314). -/
def entryAt : List TabRun → Nat → Option TabRun
  | [], _ => none
  | r :: t, k => if k < r.len then some r else entryAt t (k - r.len)

/-- The block of a unit, network, stage and port. -/
def blockOf (l : List TabBlock) (unit net stage port : Nat) : Option TabBlock :=
  l.find? fun b => b.unit == unit && b.net == net && b.stage == stage && b.port == port

/-- The input a slot-table entry names in an NCLK cycle, none where the cycle is free (R257, R314). -/
def State.slotInput (s : State) (t : TabSet) (node net port : Nat) (half : Bool) : Option Nat :=
  match s.slotStage with
  | none => none
  | some (k, st) =>
    match blockOf t.blocks node net k port with
    | none => none
    | some b =>
      match entryAt b.runs ((2 * (s.frame.cycle - st.start) + half.toNat) % st.slotLen) with
      | none => none
      | some r => if r.entry.toNat % 8 = 7 then none else some (r.entry.toNat % 8)

/-- The reservation table in force. -/
def State.resv (s : State) : List TabBlock :=
  match s.ldr.inForce with
  | none => []
  | some f => f.resv

/-- The reservation entry of a bank in the current ACLK cycle: owner kind and node (R315). -/
def State.reserved (s : State) (b : Nat) : Nat × Nat :=
  match s.slotStage with
  | none => (0, 0)
  | some (k, st) =>
    match blockOf s.resv b 0 k 0 with
    | none => (0, 0)
    | some x =>
      match entryAt x.runs ((s.frame.cycle - st.start) % st.resLen) with
      | none => (0, 0)
      | some r => (fld r.entry 11 9, fld r.entry 8 0)

end Sys2Proof.Machine
end

