-- ==== Sys2Proof/Machine/Packet.lean ====
section
/-! DEFINITION. Packets of the droveway: routes, forms, answers, tags, and what the probes see of a packet on its way (R40, R241 to R253,
R255, R265, R267, R276). -/

namespace Sys2Proof.Machine

/-! ### Routes -/

/-- The port towards a place in the same die: X first, then Y; none at the place (R246). -/
def stepTo (a b : Place) : Option Nat :=
  if a.u < b.u then some 1 else if b.u < a.u then some 3
  else if a.v < b.v then some 2 else if b.v < a.v then some 0 else none

/-- The port of the node a packet leaves by: towards its destination, over a bridge or the hub link; none at the
destination. The hub's port `d` is its link to die `d` (R246). -/
def outPort (t : TabSet) (n dst : Nat) : Option Nat :=
  if n = dst then none
  else if n = 288 then some (placeOf dst).die
  else
    let a := placeOf n
    if dst = 288 then
      if n = 272 + 4 * a.die then some 6 else stepTo a (placeOf (272 + 4 * a.die))
    else
      let b := placeOf dst
      if a.die = b.die then stepTo a b
      else
        let br := routeBridge t a.die dst
        if n = stileOf a.die br then some 5 else stepTo a (placeOf (stileOf a.die br))

/-- The node and its output that feed an input of a node (R241, R242, R246). -/
def feeder (n inp : Nat) : Option (Nat × Nat) :=
  if n = 288 then if inp < 4 then some (272 + 4 * inp, 6) else none
  else
    let a := placeOf n
    match inp with
    | 0 => if a.v = 0 then none else some (nodeAt { a with v := a.v - 1 }, 2)
    | 1 => if 8 ≤ a.u then none else some (nodeAt { a with u := a.u + 1 }, 3)
    | 2 => if 7 ≤ a.v then none else some (nodeAt { a with v := a.v + 1 }, 0)
    | 3 => if a.u = 0 then none else some (nodeAt { a with u := a.u - 1 }, 1)
    | 5 =>
      if n < 272 then none
      else
        let b := bridgeOf a.die ((n - 272) % 4)
        some (stileOf (farDie a.die b) b, 5)
    | 6 => if 272 ≤ n && (n - 272) % 4 = 0 then some (288, a.die) else none
    | _ => none

/-- The input of a node that an output of a node feeds (R241, R242, R246). -/
def linkEnd (n port : Nat) : Option (Nat × Nat) :=
  if n = 288 then (if port < 4 then some (272 + 4 * port, 6) else none)
  else
    let a := placeOf n
    match port with
    | 0 => if a.v = 0 then none else some (nodeAt { a with v := a.v - 1 }, 2)
    | 1 => if 8 ≤ a.u then none else some (nodeAt { a with u := a.u + 1 }, 3)
    | 2 => if 7 ≤ a.v then none else some (nodeAt { a with v := a.v + 1 }, 0)
    | 3 => if a.u = 0 then none else some (nodeAt { a with u := a.u - 1 }, 1)
    | 5 =>
      if n < 272 then none
      else
        let b := bridgeOf a.die ((n - 272) % 4)
        some (stileOf (farDie a.die b) b, 5)
    | 6 => if 272 ≤ n && (n - 272) % 4 = 0 then some (288, a.die) else none
    | _ => none

/-! ### Packets -/

/-- NOTAG (R248). -/
def noTag : BitVec 13 := 0x1FFF

/-- Flits of a packet of a type (R249 to R251). -/
def flitsOf (p : Pkt) : Nat :=
  match p.net with
  | .req => if p.type = 7 then 3 else if p.type = 2 || p.type = 3 || p.type = 4 || p.type = 5 || p.type = 6 || p.type = 9
      then 2 else 1
  | .data => 1 + (p.len.toNat + 4) / 4
  | _ => 1

/-- Whether a type is defined for its network (R249 to R251). -/
def typeDefined (p : Pkt) : Bool :=
  match p.net with
  | .req => 1 ≤ p.type.toNat && p.type.toNat ≤ 0xA
  | .rsp => 1 ≤ p.type.toNat && p.type.toNat ≤ 6
  | .data => p.type = 0x11 || p.type = 0x12
  | .snp => 1 ≤ p.type.toNat && p.type.toNat ≤ 3

/-- A malformed packet (R252). -/
def malformed (p : Pkt) : Bool :=
  !(typeDefined p) || 288 < p.dst.toNat || p.body.rsvd ≠ 0 || p.leg = 3 ||
  (((p.net == .req && p.type = 1) || p.net == .data) && 65535 < p.word.toNat + p.len.toNat) ||
  p.body.flits ≠ flitsOf p

/-- A request that waits for a response (R249, R253). -/
def tagged (p : Pkt) : Bool :=
  match p.net with
  | .req => p.type = 1 || p.type = 4 || p.type = 6 || p.type = 8 || p.type = 9 || (p.type = 2 && p.body.ackreq)
  | .data => p.type = 0x11 && p.body.ackreq
  | _ => false

/-- A response to a packet, from a node (R250): VC0 for a VC0 request, else VC1 (R256);
its URG starts at 0 (DESIGN CHOICE, log entry 134). -/
def reply (s : State) (n : Nat) (p : Pkt) (type : BitVec 5) (data : List Dword) : Pkt :=
  { net := .rsp, type := type, dst := p.src, src := BitVec.ofNat 9 n, unit := p.unit, tag := p.tag, fepv := p.fepv,
    fep := p.fep, tep := s.dw.tep, vc := if p.vc = 0 then 0 else 1, body := { payload := data } }

/-- An ERROR response: on VC1, with the failed packet's TAG, TYPE and WORD (R250, R267). -/
def errorReply (s : State) (n : Nat) (p : Pkt) (code : BitVec 4) : Pkt :=
  let r := reply s n p 6 [BitVec.ofNat 64 (p.type.toNat * 65536 + p.word.toNat)]
  { r with vc := 1, body := { r.body with err := code } }

/-- Whether a packet asks for something, so that an error answers it (R252, R265, R271). -/
def isRequest (p : Pkt) : Bool := p.net == .req || (p.net == .data && p.type = 0x11)

/-- Answer a packet with an error of a code. -/
def sendError (n : Nat) (p : Pkt) (code : BitVec 4) (s : State) : State := s.emit (.packet (errorReply s n p code))

/-- A hurdle or a bridge end of a node answers a request with ISOLATED (R271, R272, R274). -/
def refuse (n : Nat) (p : Pkt) (s : State) : State := sendError n p 1 (isolatedSent n s)

/-- The engine an engine's tag belongs to (R253), else the slot the packet names at its stile. -/
def engineOfPkt (n : Nat) (p : Pkt) : Nat :=
  if 4096 ≤ p.tag.toNat && p.tag.toNat < 6144 then (p.tag.toNat - 4096) / 64
  else 8 * ((n - 272) / 4) + (if (n - 272) % 4 = 2 then 4 else 0) + p.body.eng.toNat

/-- A packet that the mesh has taken out ends there: the dispatch or the posting it carries does not arrive (R173, R265, R271, R274). -/
def forgetFlight (p : Pkt) (s : State) : State :=
  if p.net == .req && p.type = 7 then
    match s.arr.flight.find? fun x => x.pf == p.src.toNat && x.engine == engineOfPkt p.dst.toNat p && x.mr % 4 == p.body.mri.toNat with
    | none => s
    | some x => { s with arr := { s.arr with flight := s.arr.flight.erase x } }
  else if p.net == .rsp && p.type = 4 then
    match s.eng.posts.find? fun x => x.pf == p.dst.toNat && engineNode x.engine == p.src.toNat && x.mr % 4 == p.body.mri.toNat with
    | none => s
    | some x => { s with eng := { s.eng with posts := s.eng.posts.erase x } }
  else s

/-- A hurdle or a bridge end of a node answers a packet: requests with ISOLATED, all else is absorbed (R271, R274). -/
def shutOut (n : Nat) (p : Pkt) (s : State) : State :=
  let s := forgetFlight p s
  if isRequest p then refuse n p s else s.count .nodeErrcnt1 n 15 0 1

/-- The route and slot tables of a packet's TEP (R264). -/
def State.tabsOf (s : State) (p : Pkt) : TabSet :=
  if p.net == .snp || p.tep == s.dw.tep then s.dw.tabs else s.dw.oldTabs

/-! ### Tags (R253) -/

/-- The tags that the issuer of a packet owns: the first and their number. A stile has four engines. -/
def ownTags (s : State) (p : Pkt) : Nat × Nat :=
  match p.unit.toNat with
  | 4 => (4096 + 64 * engineOfPkt p.src.toNat { p with tag := 0, body := {} }, 256)
  | 5 => (6144, 512)
  | 6 => (6656, 512)
  | 7 => (6144, 512)
  | _ => (16 * (s.fold p.src.toNat).lf, 16)

/-- The first free tag of a range. -/
def freeTag (s : State) (lo n : Nat) : Option (BitVec 13) :=
  (((List.range n).map (lo + ·)).find? fun t => (Store.get s.dw.tags none t).isNone).map (BitVec.ofNat 13)

/-- A unit presents a request at its node; a tagged one holds its tag from here on (R253; log entry 94). -/
def present (p : Pkt) (s : State) : State :=
  let s := s.emit (.packet p)
  if tagged p then { s with dw := { s.dw with tags := Store.set s.dw.tags none p.tag.toNat (some { pkt := p, fresh := true }) } }
  else s

/-- The epochs with which a node's units inject: those of the notice it took when its hurdle opened in this frame, else the module's (R40,
R264, R266). -/
def State.epochsAt (s : State) (n : Nat) : Bool × Bool :=
  match Store.get s.dw.notices none n with
  | none => (bit s.frame.epoch 0, s.dw.tep)
  | some x => (x.1, x.2.1)

/-- A request of a fold's unit for a bank on behalf of the frame (R40, R248). -/
def unitPkt (s : State) (pf unit b word : Nat) : Pkt :=
  { src := BitVec.ofNat 9 pf, dst := BitVec.ofNat 9 b, unit := BitVec.ofNat 3 unit, fepv := true, fep := (s.epochsAt pf).1
    tep := s.dw.tep, word := BitVec.ofNat 16 word }

/-- A plane as one WRITEB with its rows (R249). -/
def planeWrite (p : Pkt) (t : BitVec 13) (rows : List Dword) : Pkt :=
  { p with net := .data, type := 0x11, tag := t, len := 63, body := { ackreq := true, payload := rows, flits := 17 } }

/-- A plane as one READ (R249). -/
def planeRead (p : Pkt) (t : BitVec 13) : Pkt := { p with type := 1, tag := t, len := 63 }

/-! ### Output queues (R246, R258) -/

/-- The NCLK cycle: two to an ACLK cycle. -/
def nclk (s : State) (half : Bool) : Nat := 2 * s.frame.time + half.toNat

/-- The key of an output queue. -/
def queueKey (n : Nat) (net : Net) (port : Nat) : Nat := n * 64 + netCode net * 8 + port

/-- An output queue. -/
def State.queue (s : State) (n : Nat) (net : Net) (port : Nat) : List Queued :=
  Store.get s.dw.queues [] (queueKey n net port)

/-- Whether some flits of a packet are still in its queue. -/
def Queued.stays (x : Queued) : Bool := x.sent < x.pkt.body.flits

/-- The input buffer of a packet behind an output: input, VC and LEG (R246). -/
def Queued.buffer (x : Queued) : Nat × BitVec 2 × BitVec 2 := (x.inp, x.pkt.vc, x.pkt.leg)

/-- Note since when the next flit of each buffer has been at its head: those that have come there just now, since `t`. -/
def touchHeads (t : Nat) : List Queued → List (Nat × BitVec 2 × BitVec 2) → List Queued
  | [], _ => []
  | x :: l, seen =>
    if !x.stays || seen.contains x.buffer then x :: touchHeads t l seen
    else (if x.headAt.isNone && x.sent < x.got then { x with headAt := some t } else x) :: touchHeads t l (x.buffer :: seen)

/-- Replace an output queue in an NCLK cycle. -/
def State.setQueue (s : State) (n : Nat) (net : Net) (port t : Nat) (l : List Queued) : State :=
  { s with dw := { s.dw with queues := Store.set s.dw.queues [] (queueKey n net port) (touchHeads t l []) } }

/-- The state once a packet is taken from the queue of a port it is for, or the state itself where no such packet is queued; none while flits
of it have still to leave by the port (R257). -/
def atLocal (n : Nat) (net : Net) (port : Nat) (f : Pkt → Bool) (s : State) : Option State :=
  match (s.queue n net port).find? fun x => f x.pkt with
  | none => some s
  | some x => if x.stays then none else some (s.setQueue n net port (nclk s false) ((s.queue n net port).erase x))

/-- A packet is taken from the queue of the port it is for at its destination. -/
def takeLocal (n port : Nat) (p : Pkt) (s : State) : Option State := atLocal n p.net port (· == p) s

/-- The best of a list, of several the first. -/
def best {α : Type} (f : α → α → Bool) : List α → Option α
  | [] => none
  | x :: t => match best f t with
    | none => some x
    | some y => some (if f y x then y else x)

/-! ### Requests that are carried at once -/

/-- Flits cross a bridge from a stile: what failed its CRC was sent again, up to eight times a flit. How often, no command says (R274; log
entry 119). -/
def bridgeRetries (n flits : Nat) (s : State) : State :=
  let d := s.draw 16
  d.2.count .bridgecnt n 31 16 (d.1.toNat % (8 * flits + 1))

/-- The routers on the rest of a packet's way from a node, which it enters by an input, up to a router: each one's probe sees its head (R246,
R276). -/
def passRouters (t : TabSet) (till : Nat) : Nat → Nat → Nat → Pkt → State → State
  | 0, _, _, _, s => s
  | k + 1, n, inp, p, s =>
    let s := if n < 288 then probePacket n inp p s else s
    if n = till then s
    else
      match outPort t n p.dst.toNat with
      | none => s
      | some port =>
        match linkEnd n port with
        | none => s
        | some x =>
          if port = 5 && n < 288 then passRouters t till k x.1 x.2 { p with leg := p.leg + 1 } (bridgeRetries n p.body.flits s)
          else passRouters t till k x.1 x.2 p s

/-- The input by which a packet enters the router of its source: a bank's answers come by the bank port, all else by the unit port (R241,
R276). -/
def sourceInput (p : Pkt) : Nat :=
  if p.src.toNat < 272 && ((p.net == .data && p.type = 0x12) || (p.net == .rsp && p.type ≠ 4 && p.type ≠ 5)) then 5 else 4

/-- A packet that meets no other passes from its source to its destination (log entry 94). -/
def travel (p : Pkt) (s : State) : State := passRouters s.dw.tabs p.dst.toNat 64 p.src.toNat (sourceInput p) p s

/-- A request that meets no other passes from its source to the node that refuses it with ISOLATED, and the answer passes back (R271, R274,
R276; log entry 94). -/
def refusedTrip (n : Nat) (p : Pkt) (s : State) : State :=
  let s := isolatedSent n (passRouters s.dw.tabs n 64 p.src.toNat 4 p s)
  travel (errorReply s n p 1) s

end Sys2Proof.Machine
end

