-- ==== Sys2Proof/Machine/Port.lean ====
section
/-! DEFINITION. The port of a pasture bank: who stands highest, the order of accesses to a word, one word access at a time; and the plane
movers, which use it (R42, R141 to R146, R165, R216 to R230, R262). -/

namespace Sys2Proof.Machine

/-! ### Waiting requests -/

/-- The words a request touches, as first index and number. -/
def pktWords (p : Pkt) : Nat × Nat :=
  (p.word.toNat, if p.net == .data || (p.net == .req && p.type = 1) then p.len.toNat + 1 else 1)

/-- Whether a request writes: a write or an atomic. -/
def writes (p : Pkt) : Bool := !(p.net == .req && p.type = 1)

/-- The words a waiting request has still to access, as first index and number. -/
def Waiting.rest (x : Waiting) : Nat × Nat := ((pktWords x.pkt).1 + x.done, (pktWords x.pkt).2 - x.done)

/-- A request with a frame epoch that is not the current one (R41, R42). -/
def oldEpoch (s : State) (p : Pkt) : Bool := p.fepv && p.fep != bit s.frame.epoch 0

/-- The priority of a waiting droveway request in the current cycle: the owner of a reserved cycle stands first; the restore and the copies of
the spare that carries the bank's logical fold are of row 2 (R217, R446). -/
def priority (s : State) (b : Nat) (p : Pkt) : Nat :=
  if p.vc = 0 && s.reserved b = (4, p.src.toNat) then 1
  else if p.unit = 2 && s.bankOf (s.fold p.src.toNat).lf = some b then 2
  else if p.vc = 0 then 3 else 6

/-! ### Users of a port -/

/-- The pasture word of row `y` of a slot (R141). -/
def slotWord (slot : BitVec 10) (y : Nat) : Nat := 64 * slot.toNat + y

/-- A user of a port: a waiting request, the next row of the own fold's mover, or an access of a unit that no packet brings, with its priority
and urgency, its word and whether it writes (R217). -/
inductive PortUser
  | req (x : Waiting)
  | row (m : Move)
  | unit (p urg w : Nat) (wr : Bool)
  deriving DecidableEq, Repr

/-- The words a user has still to access, as first index and number. -/
def PortUser.rest : PortUser → Nat × Nat
  | .req x => x.rest
  | .row m => (slotWord m.slot m.row, 64 - m.row)
  | .unit _ _ w _ => (w, 1)

/-- Whether a user writes. -/
def PortUser.writes : PortUser → Bool
  | .req x => Machine.writes x.pkt
  | .row m => m.out
  | .unit _ _ _ wr => wr

/-- When a user came to the port; a unit's access comes in the current cycle (log entry 116). -/
def PortUser.since (s : State) : PortUser → Nat
  | .req x => x.since
  | .row m => m.since
  | .unit .. => s.frame.time

/-- The priority of the own fold's mover in the current cycle (R217, R315). -/
def moverPriority (s : State) (b : Nat) : Nat := if (s.reserved b).1 = 1 then 1 else 4

/-- The priority and the urgency of a user in the current cycle (R217). -/
def PortUser.rank (s : State) (b : Nat) : PortUser → Nat × Nat
  | .req x => (priority s b x.pkt, x.pkt.urg.toNat)
  | .row _ => (moverPriority s b, 0)
  | .unit p urg _ _ => (p, urg)

/-- Whether one rank stands above another: urgency counts among best-effort requests (R217). -/
def standsAbove (x y : Nat × Nat) : Bool := x.1 < y.1 || (x.1 == y.1 && x.1 == 6 && y.2 < x.2)

/-- Whether one user stands above another (R217). -/
def higher (s : State) (b : Nat) (u v : PortUser) : Bool := standsAbove (u.rank s b) (v.rank s b)

/-- How the arrivals of two users compare: those of packets by their cycles, others by their times (R219, R220). -/
def arrivals (s : State) : PortUser → PortUser → Nat × Nat
  | .req x, .req y => (x.cycle, y.cycle)
  | u, v => (u.since s, v.since s)

/-- Whether user `u` must access the next word of `v` before `v` does: it came in an earlier cycle, or in the same cycle and writes
where `v` reads, or both write and R217 puts `u` first (R219, R220). -/
def mustPrecede (s : State) (b : Nat) (u v : PortUser) : Bool :=
  let a := arrivals s u v
  u.rest.1 ≤ v.rest.1 && v.rest.1 < u.rest.1 + u.rest.2 &&
  (a.1 < a.2 || (a.1 == a.2 && ((u.writes && !v.writes) || (u.writes && v.writes && higher s b u v))))

/-- The user that is served in the place of one that must wait for it (R219, R220). -/
def settled (s : State) (b : Nat) (l : List PortUser) : Nat → PortUser → PortUser
  | 0, v => v
  | n + 1, v =>
    match l.find? fun u => mustPrecede s b u v with
    | none => v
    | some u => settled s b l n u

/-- The row of the own fold's mover that waits at a bank. -/
def ownRows (s : State) (b : Nat) : List PortUser :=
  match (s.fold b).moves with
  | [] => []
  | m :: _ => if m.bank = b then [.row m] else []

/-- Whether the own fold's plane mover has a row to pass at a bank. -/
def ownMove (s : State) (b : Nat) : Bool := !(ownRows s b).isEmpty

/-- The user that a port serves, of those at it and an access that has just come: the highest, of several the one that came first, or the one
that must access its word before it; and its priority, that of the highest (R217, R219, R220). -/
def portChoice (s : State) (b : Nat) (new : List PortUser) : Option (Nat × PortUser) :=
  let l := (s.bank b).waiting.map .req ++ ownRows s b ++ new
  (best (higher s b) l).map fun u => ((u.rank s b).1, settled s b l l.length u)

/-! ### One word access -/

/-- A request leaves the port, and its wait is counted (BANK[b].WAITMAX). -/
def leavePort (b : Nat) (x : Waiting) (s : State) : State :=
  let w := s.frame.time - x.since
  s.modBank b fun k =>
    { k with waiting := k.waiting.erase x, maxWait := if x.pkt.vc = 0 then k.maxWait else max k.maxWait w }

/-- A request has accessed one word more. -/
def wordDone (b : Nat) (x : Waiting) (acc : List Dword) (s : State) : State :=
  s.modBank b fun k => { k with waiting := k.waiting.replace x { x with done := x.done + 1, acc := acc } }

/-- The second cycle of a two-cycle access follows (R216). -/
def occupy (b : Nat) (s : State) : State := s.modBank b fun k => { k with busy := true }

/-- A READ has all its words: RDATA or RDATAB, and a line fill is recorded for its engine (R249, R262). -/
def answerRead (b : Nat) (p : Pkt) (l : List Dword) (s : State) : State :=
  let s := if p.unit = 4 && p.len = 7 && 4096 ≤ p.tag.toNat && p.tag.toNat < 6144 then
      holdLine b (p.word.toNat / 8) ((p.tag.toNat - 4096) / 64) s
    else s
  if p.len = 0 then s.emit (.packet (reply s b p 2 l))
  else
    let r := reply s b p 0x12 l
    s.emit (.packet { r with net := .data, vc := p.vc, len := p.len, word := p.word,
                             body := { r.body with flits := 1 + (p.len.toNat + 4) / 4 } })

/-- A READ has found a word, and is answered when it was the last. -/
def tookWord (b : Nat) (x : Waiting) (v : Dword) (s : State) : State :=
  if x.done < x.pkt.len.toNat then wordDone b x (x.acc ++ [v]) s
  else answerRead b x.pkt (x.acc ++ [v]) (leavePort b x s)

/-- One word of a READ: an old one is discarded, and a word that cannot be read ends it with ERROR ECC, or reads as all ones for the host
(R42, R228). -/
def readWord (b : Nat) (x : Waiting) (s : State) : State :=
  if oldEpoch s x.pkt then leavePort b x s
  else
    match bankRead b x.rest.1 false s with
    | (.word v, s) => tookWord b x v s
    | (_, s) => if x.pkt.unit = 6 then tookWord b x (BitVec.allOnes 64) s else sendError b x.pkt 4 (leavePort b x s)

/-- The acknowledgement a write asks for. -/
def ackIf (b : Nat) (p : Pkt) (s : State) : State := if p.body.ackreq then s.emit (.packet (reply s b p 1 [])) else s

/-- The operand of an atomic. -/
def operandOf (p : Pkt) : Dword := p.body.payload.headD 0

/-- One word of a WRITEB. -/
def writeWord (b : Nat) (x : Waiting) (s : State) : State :=
  let s := bankStore b x.rest.1 (x.pkt.body.payload.getD x.done 0) s
  if x.done < x.pkt.len.toNat then wordDone b x [] s else ackIf b x.pkt (leavePort b x s)

/-- An atomic at the bank; the returning form answers with the old word or with ERROR ECC (R221, R228). -/
def doAtomic (b : Nat) (p : Pkt) (f : Dword → Dword) (returns : Bool) (s : State) : State :=
  match bankAtomic b p.word.toNat f s with
  | (.word o, s) => if returns then s.emit (.packet (reply s b p 3 [o])) else s
  | (_, s) => if returns then sendError b p 4 s else s

/-- A request of one word that writes: WRITE1 or an atomic; all but a whole-word write take a second cycle (R216); a write that is not
performed is acknowledged all the same (R228; DESIGN CHOICE, log entry 105). -/
def writeOne (b : Nat) (p : Pkt) (s : State) : State :=
  match p.type.toNat with
  | 2 =>
    let s := ackIf b p (bankWrite b p.word.toNat p.bmask (operandOf p) s)
    if p.bmask = 0xFF then s else occupy b s
  | 3 => occupy b (doAtomic b p (· + operandOf p) false s)
  | 4 => occupy b (doAtomic b p (· + operandOf p) true s)
  | 5 => occupy b (doAtomic b p (fun _ => operandOf p) false s)
  | 6 => occupy b (doAtomic b p (fun _ => operandOf p) true s)
  | _ => s

/-- One word access of a waiting request (R216). -/
def serveWord (b : Nat) (x : Waiting) (s : State) : State :=
  if x.pkt.net == .data then writeWord b x s
  else if x.pkt.type = 1 then readWord b x s
  else writeOne b x.pkt (leavePort b x s)

/-! ### Plane movers -/

/-- Drop the move at the head of a mover's queue: it is complete (R146). -/
def popMove (pf : Nat) (s : State) : State :=
  s.modFold pf fun f => { f with moves := match f.moves.drop 1 with
    | [] => []
    | x :: t => { x with since := s.frame.time + 1 } :: t }

/-- Change the move at the head of a mover's queue. -/
def State.modMove (s : State) (pf : Nat) (g : Move → Move) : State :=
  s.modFold pf fun f => match f.moves with
    | [] => f
    | x :: t => { f with moves := g x :: t }

/-- One row passed: the next one waits from the next cycle on, or the move is complete (R142, R146). -/
def rowDone (pf : Nat) (m : Move) (s : State) : State :=
  let s := s.modFold pf fun f => { f with portAt := some s.frame.time }
  if 63 ≤ m.row then popMove pf s else s.modMove pf fun x => { x with row := x.row + 1, since := s.frame.time + 1 }

/-- A move answered with ISOLATED: its remaining rows stay, it completes, the pen is FAULTED (R146, R234). -/
def moveIsolated (pf n : Nat) (s : State) : State := popMove pf (faultPenOf pf (isolatedSent n s))

/-- Move one row of a move between a fold and its own bank (R141, R143, R146, R228). -/
def ownRow (pf : Nat) (m : Move) (s : State) : State :=
  if s.bankShut pf then moveIsolated pf pf s
  else if m.out then
    let (v, s) := readRow pf m.plane.toNat m.row s
    rowDone pf m (bankStore pf (slotWord m.slot m.row) v s)
  else
    match bankRead pf (slotWord m.slot m.row) false s with
    | (.word v, s) => rowDone pf m (writeRow pf m.plane.toNat m.row v m.spec s)
    | (_, s) => rowDone pf m (faultPenOf pf s)

/-- The request of a move to or from another fold's bank: PLANE_OUT's WRITEB with its first four rows, PLANE_IN's READ, under a tag of the
fold; without a free tag it stays (R144, R249, R253). -/
def sendMove (pf : Nat) (m : Move) (s : State) : State :=
  match freeTag s (16 * (s.fold pf).lf) 16 with
  | none => s
  | some t =>
    let p := unitPkt s pf 0 m.bank (slotWord m.slot 0)
    present (if m.out then planeWrite p t m.data else planeRead p t) (s.modMove pf fun x => { x with tag := some t })

/-- The flits that a PLANE_OUT has for its packet: the header, and one for every four rows that have been read (R144). -/
def Move.flits (m : Move) : Nat := 1 + m.data.length / 4

/-- Whether a packet is the one of a fold's mover under a tag. -/
def ofMover (pf : Nat) (t : BitVec 13) (p : Pkt) : Bool := p.net == .data && p.unit == 0 && p.src.toNat == pf && p.tag == t

/-- The rows read since go into the packet where it stands at its node, a flit for every four of them (R144). -/
def feedMove (pf : Nat) (m : Move) (t : BitVec 13) (s : State) : State :=
  (List.range 7).foldl (fun s port =>
    let q := s.queue pf .data port
    if q.any fun x => ofMover pf t x.pkt then
      s.setQueue pf .data port (nclk s false) (q.map fun x =>
        if ofMover pf t x.pkt then { x with got := m.flits, pkt := { x.pkt with body := { x.pkt.body with payload := m.data } } } else x)
    else s) s

/-- The next row of a PLANE_OUT to another fold's bank is read through the plane port (R144). -/
def readNext (pf : Nat) (m : Move) (s : State) : State :=
  let (v, s) := readRow pf m.plane.toNat m.data.length s
  let m := { m with data := m.data ++ [v] }
  let s := (s.modFold pf fun f => { f with portAt := some s.frame.time }).modMove pf fun x => { x with data := m.data }
  match m.tag with
  | none => s
  | some t => if m.data.length % 4 = 0 then feedMove pf m t s else s

/-- Row `y` of a PLANE_IN from another fold's bank, if its flit has come to the fold, or the whole packet has (R144). -/
def rowCome (s : State) (pf : Nat) (m : Move) (t : BitVec 13) : Option Dword :=
  match m.data with
  | [] =>
    match (s.queue pf .data 4).find? fun x => x.pkt.type == 0x12 && x.pkt.unit == 0 && x.pkt.tag == t with
    | none => none
    | some x =>
      if oldEpoch s x.pkt || (s.fold pf).hurdle != .opened || 4 * x.sent < m.row + 5 then none else x.pkt.body.payload[m.row]?
  | l => some (l.getD m.row 0)

/-- One row of a move to or from another fold's bank: read for its packet, or taken from the packet that comes (R144, R146). -/
def farRow (pf : Nat) (m : Move) (s : State) : State :=
  match m.tag with
  | none => if m.out && m.data.length < 4 then readNext pf m s else sendMove pf m s
  | some t =>
    if m.out then (if m.data.length < 64 then readNext pf m s else s)
    else match rowCome s pf m t with
      | none => s
      | some v => rowDone pf m (writeRow pf m.plane.toNat m.row v m.spec s)

/-- Whether a move to or from another fold's bank has a row for the plane port in this cycle (R144). -/
def farReady (s : State) (pf : Nat) (m : Move) : Bool :=
  match m.tag with
  | none => m.out && m.data.length < 4
  | some t => if m.out then m.data.length < 64 else (rowCome s pf m t).isSome

/-- The mover of a fold goes on by one row, without regard to other users of its bank (R142). -/
def moveRow (pf : Nat) (s : State) : State :=
  match (s.fold pf).moves with
  | [] => s
  | m :: _ => if m.bank = pf then ownRow pf m s else farRow pf m s

/-! ### The port -/

/-- ECC_WRITEBACK: the corrected word is written back (R227). -/
def eccWriteback (b : Nat) (s : State) : State :=
  match (s.bank b).writeBack with
  | [] => s
  | w :: t =>
    let s := s.modBank b fun k => { k with writeBack := t }
    if s.eccOf b w = .single then s.setEcc b w .good else s

/-- PATROL_SCRUB: the next word is read (R230). -/
def patrolScrub (b : Nat) (s : State) : State :=
  if (s.bank b).power != .on || s.bankShut b || !(bit (s.reg .scrub b) 0) then s
  else
    let w := s.rf .scrub b 31 16
    (bankRead b w true s).2.setRf .scrub b 31 16 (w + 1)

/-- The quiet step of the guard band, in which patrol scrub ranks above best-effort requests (R32, R218). -/
def State.quiet (s : State) : Bool := s.guard + 961 ≤ s.frame.cycle && s.frame.cycle < s.period

/-- The port serves a user (R216). -/
def serveUser (b : Nat) (u : PortUser) (s : State) : State :=
  match u with
  | .req x => serveWord b x s
  | .row m => ownRow b m s
  | .unit .. => s

/-- Whether the quiet step's scrub of a bank stands above best-effort requests (R218). -/
def quietScrub (s : State) (b : Nat) : Bool := s.quiet && bit (s.reg .scrub b) 0

/-- What the port does when nothing above stands: a best-effort request; write-back and scrub below it, in the quiet step the scrub above
it (R217, R218). -/
def portLow (b : Nat) (u : Option PortUser) (s : State) : State :=
  if quietScrub s b then patrolScrub b s
  else match u with
    | some u => serveUser b u s
    | none => if (s.bank b).writeBack.isEmpty then patrolScrub b s else eccWriteback b s

/-- The second cycle of an access passes (R216). -/
def secondCycle (b : Nat) (s : State) : State := s.modBank b fun k => { k with busy := false }

/-- One ACLK cycle of the port of a bank that serves: the second cycle of an access, or the user that stands highest (R216 to R218). -/
def portCycle (b : Nat) (s : State) : State :=
  if (s.bank b).busy then secondCycle b s
  else match portChoice s b [] with
    | none => portLow b none s
    | some (p, u) => if p < 6 then serveUser b u s else portLow b (some u) s

/-- Whether a bank serves requests: it is ON, and its hurdle has not sealed (R233, R270). -/
def State.bankServes (s : State) (b : Nat) : Bool :=
  (s.bank b).power == .on && !(s.bank b).failed && (s.bank b).hurdle != .closed

/-- One ACLK cycle of a bank. -/
def bankCycle (b : Nat) (s : State) : State := if s.bankServes b then portCycle b s else s

/-- Whether the patrol scrub has every cycle of a port that no user above it takes: in the quiet step, where what waits is best effort
(R218). -/
def scrubsNow (b : Nat) (s : State) : Bool :=
  quietScrub s b && !(s.bank b).busy && match portChoice s b [] with
    | none => true
    | some x => x.1 == 6

/-- The port runs until a request that arrived in a cycle has been performed; one that the quiet step's scrub keeps off the port goes on
waiting (R218, R230; log entry 116). -/
def portUntil (b : Nat) (p : Pkt) (c : Nat) : Nat → State → State
  | 0, s => s
  | n + 1, s =>
    if ((s.bank b).waiting.any fun x => x.pkt == p && x.cycle == c) && !(scrubsNow b s) then portUntil b p c n (portCycle b s) else s

/-- The priority of a unit that reaches the port without a packet: row 1 in a cycle reserved for it (R217, R315). -/
def unitPriority (s : State) (b kind p : Nat) : Nat := if (s.reserved b).1 = kind then 1 else p

/-- An access that no packet brings takes its turn at a port: every user that stands above it, or must access its word before it, is served
first (R216, R217, R219, R220). -/
def portAccess (b p urg w : Nat) (wr : Bool) : Nat → State → State
  | 0, s => s
  | n + 1, s =>
    if (s.bank b).busy then portAccess b p urg w wr n (secondCycle b s)
    else match portChoice s b [.unit p urg w wr] with
      | none => s
      | some (_, .unit ..) => s
      | some (_, u) => portAccess b p urg w wr n (serveUser b u s)

/-- Cycles that are enough for every user of a port. -/
def portCycles : Nat := 8192

/-- What waits to be written back goes to its words (R217, R227). -/
def drainBacks (b : Nat) : Nat → State → State
  | 0, s => s
  | n + 1, s => drainBacks b n (eccWriteback b (portAccess b 7 0 65536 true portCycles s))

/-- ECC_WRITEBACK: the port's users above it go first (R217, R227). -/
def writebackTurn (b : Nat) (s : State) : State :=
  if s.bankServes b then eccWriteback b (portAccess b 7 0 65536 true portCycles s) else s

/-- PATROL_SCRUB: the port's users above it go first; in the quiet step these are not the best-effort ones, nor the write-back (R217, R218,
R230). -/
def scrubTurn (b : Nat) (s : State) : State :=
  if !(s.bankServes b) || !(bit (s.reg .scrub b) 0) then s
  else if s.quiet then patrolScrub b (portAccess b 6 16 65536 false portCycles s)
  else patrolScrub b (drainBacks b (s.bank b).writeBack.length (portAccess b 8 0 65536 false portCycles s))

/-! ### The plane port -/

/-- The mover of a fold goes on by one cycle: at its own bank in its turn at the port (R142, R143, R217). -/
def moveStep (pf : Nat) (s : State) : State :=
  if ownMove s pf && s.bankServes pf then portCycle pf s else moveRow pf s

end Sys2Proof.Machine
end

