-- ==== Sys2Proof/Machine/PlaneOps.lean ====
section
/-! DEFINITION. Word-engine dispatch from a pen, plane moves, histogram passes and checkpoint copies (R44 to R47, R117 to
R119, R140 to R148, R224). -/

namespace Sys2Proof.Machine

/-! ### WEGO -/

/-- The 32 bytes of the descriptor at D-space words 16k to 16k + 15 (R116, R140). -/
def descBytes (s : State) (pf k : Nat) : List Byte :=
  (List.range 16).flatMap fun i => leBytes 2 (s.dword pf (16 * k + i)).toNat

/-- The DISPATCH packet of a descriptor (R248, R249). -/
def dispatchPkt (s : State) (d : Dispatch) : Pkt :=
  { unitPkt s d.pf 3 (engineNode d.engine) 0 with
    type := 7
    body := { mri := BitVec.ofNat 2 d.mr, eng := BitVec.ofNat 2 d.engine, flits := 3
              payload := (List.range 4).map fun i => BitVec.ofNat 64 (leAt d.bytes (8 * i) 8) } }

/-- WEGO: the descriptor leaves for its engine, MRn belongs to the new dispatch, READY[n] clears and PENDING[n] sets (R127,
R140). -/
def wegoOp (p : Nat) (cond : BitVec 2) (r : Fin 8) (engine : Fin 32) (mr : Fin 4) (s : State) : State :=
  issue p .held 2 (some cond) (fun c s =>
    let k := fld c.seq.core.s[r] 11 4
    let id := s.arr.dispatches + 1
    let d : Dispatch := ⟨engine, c.pf, mr, id, (s.epochsAt c.pf).1, descBytes s c.pf k⟩
    let s := { s with arr := { s.arr with dispatches := id, flight := s.arr.flight ++ [d] } }
    let s := s.emit (.packet (dispatchPkt s d))
    s.modSeq c.pf fun q =>
      { q with mrReady := q.mrReady &&& ~~~(1#4 <<< mr.val), mrPend := q.mrPend ||| (1#4 <<< mr.val)
               mrOwner := q.mrOwner.set mr id }) s

/-! ### Plane moves -/

/-- The logical fold whose bank a bank field names for the member at index `j` (R117). -/
def moveTarget (pen : PenCfg) (field j : Nat) : Nat :=
  if field = 0 then pen.first + j else (pen.first + field + j) % 256

/-- PLANE_OUT and PLANE_IN: a move joins every live member's queue (R117, R142, R165). -/
def moveOp (out : Bool) (p : Nat) (cond : BitVec 2) (r : Fin 8) (field : BitVec 8) (off : BitVec 6) (s : State) : State :=
  issue p (if out then .planeOut else .planeIn off) 2 (some cond) (fun c s =>
    let a : BitVec 11 := c.seq.core.wb + off.setWidth 11
    let slot : BitVec 10 := (c.seq.core.s[r]).setWidth 10
    eachLive c (fun pf s =>
      let j := (s.fold pf).lf - c.pen.cfg.first
      match s.bankOf (moveTarget c.pen.cfg field.toNat j) with
      | none => markFaulted c.pen.cfg.first s
      | some b => s.modFold pf fun f => { f with moves := f.moves ++ [⟨out, a, b, slot, 0, c.seq.ra.isSome, [], none, s.frame.time + 1⟩] }) s) s

/-- Let the mover go on until its queue has become shorter or `n` cycles have passed. -/
def moveRows (pf k : Nat) : Nat → State → State
  | 0, s => s
  | n + 1, s =>
    let t := moveStep pf s
    if (t.fold pf).moves.length < k then t else moveRows pf k n t

/-- PLANE_MOVE_COMPLETE: the rows left of the move at the head, each in its turn at its bank's port; a move to or from another fold's bank
sends its request, or takes what has come, and a PLANE_OUT there is complete when it is acknowledged (R144, R146, R216, R217). -/
def moveComplete (pf : Nat) (s : State) : State := moveRows pf (s.fold pf).moves.length portCycles s

/-! ### Histogram passes -/

/-- The distinct bin values among the PEs of a mask with their counts, lowest first; the planes are the bits of the index
from the top (R147). -/
def binsOf (m : Plane) : List Plane → Nat → List (Nat × Nat)
  | [], v => if m = 0 then [] else [(v, popcount m)]
  | b :: t, v => if m = 0 then [] else binsOf (m &&& ~~~b) t (2 * v) ++ binsOf (m &&& b) t (2 * v + 1)

/-- Put one row of a plane into a copy of it. -/
def copyRow (l : List Plane) (k y : Nat) (r : Dword) : List Plane := l.modify k fun v => setRow v y r

/-- The tally unit reads one row of a field through the plane port; after the last it knows its bins, and one without a contributing PE is
free (R74, R147, R148). -/
def histoRow (pf : Nat) (s : State) : State :=
  let s := s.modFold pf fun f => { f with portAt := if f.histo.isSome then some s.frame.time else f.portAt }
  match (s.fold pf).histo with
  | none => s
  | some h =>
    if h.left = 0 then s
    else
      let i := 64 * h.planes.length - h.left
      let (v, s) := readRow pf ((h.first + i / 64) % 2048) (i % 64) s
      let l := copyRow h.planes (i / 64) (i % 64) v
      let bins := if h.left = 1 then binsOf h.mask l.reverse 0 else []
      s.modFold pf fun f =>
        { f with histo := if h.left = 1 && bins.isEmpty then none else some { h with planes := l, left := h.left - 1, bins := bins } }

/-- Read up to `n` rows of the field. -/
def histoRows (pf : Nat) : Nat → State → State
  | 0, s => s
  | n + 1, s => histoRows pf n (histoRow pf s)

/-- Whether the mover or the tally unit of a fold has a row for the plane port. -/
def portWanted (s : State) (pf : Nat) : Bool :=
  (match (s.fold pf).moves with
    | [] => false
    | m :: _ => m.bank == pf || farReady s pf m) ||
  match (s.fold pf).histo with
    | none => false
    | some h => 0 < h.left

/-- An access of the lowest priority takes its turn at the plane port of a fold: the rows of moves and of HISTO go first (R58). -/
def portTurn (pf : Nat) : Nat → State → State
  | 0, s => s
  | n + 1, s =>
    if !(portWanted s pf) then s
    else portTurn pf n (match (s.fold pf).moves with
      | [] => histoRow pf s
      | m :: _ => if m.bank = pf || farReady s pf m then moveStep pf s else histoRow pf s)

/-- HISTO in one fold: the tally unit captures A, and reads the field from then on (R147, R148). -/
def histoFold (a width bank : Nat) (base : Half) (pf : Nat) (s : State) : State :=
  s.modFold pf fun f =>
    { f with histo := some { bank := bank, base := base, mask := f.pe.a, first := a, planes := List.replicate width 0, left := 64 * width } }

/-- HISTO (R118, R147, R148). -/
def histoOp (p : Nat) (cond : BitVec 2) (r : Fin 8) (widthM1 : BitVec 4) (remote : Bool) (off : BitVec 6)
    (s : State) : State :=
  issue p .histo 2 (some cond) (fun c s =>
    let a := (c.seq.core.wb.toNat + off.toNat) % 2048
    eachLive c (fun pf s =>
      let lf := if remote then fld c.seq.core.s[4] 7 0 else (s.fold pf).lf
      match s.bankOf lf with
      | none => markFaulted c.pen.cfg.first s
      | some b => histoFold a (widthM1.toNat + 1) b c.seq.core.s[r] pf s) s) s

/-- One posted add of a tally unit: at the own bank over the local path, lost with the pen FAULTED where that is shut; to another bank as
an ADD_P (R217, R224, R234, R268). -/
def tallyAdd (pf : Nat) (h : Histo) (x : Nat × Nat) (s : State) : State :=
  let w := (h.base.toNat + x.1) % 65536
  if h.bank ≠ pf then
    present { unitPkt s pf 1 h.bank w with type := 3, body := { payload := [BitVec.ofNat 64 x.2], flits := 2 } } s
  else if s.bankShut pf then faultPenOf pf (isolatedSent pf s)
  else
    let s := portAccess pf (unitPriority s pf 2 5) 0 w true portCycles s
    occupy pf (bankAtomic pf w (fun v => v + BitVec.ofNat 64 x.2) s).2

/-- HISTO_PASS: the rest of the field is read; then up to 64 values not yet handled, lowest first, one add each; after the last the unit is
free (R148). -/
def histoPass (pf : Nat) (s : State) : State :=
  let s := match (s.fold pf).histo with
    | none => s
    | some h => histoRows pf h.left s
  match (s.fold pf).histo with
  | none => s
  | some h =>
    let s := (h.bins.take 64).foldl (fun s x => tallyAdd pf h x s) s
    let rest := h.bins.drop 64
    s.modFold pf fun f => { f with histo := if rest.isEmpty then none else some { h with bins := rest } }

/-! ### Checkpoints -/

/-- Whether a plane lies in a pen's carried region (R119, R282). -/
def inCarried (c : PenCfg) (a : Nat) : Bool := c.cbase ≤ a && a < c.cbase + c.carried

/-- CKPT: a hint; outside the carried region an undefined encoding (R45, R119). -/
def ckptOp (p : Nat) (cond : BitVec 2) (plane : BitVec 11) (s : State) : State :=
  match s.penAt p with
  | none => s
  | some pen =>
    if !(inCarried pen.cfg plane.toNat) then issueUndefined p .undefCtl 2 4 none s
    else
      issue p .held 2 (some cond) (fun c s =>
        s.modPen c.pen.cfg.first fun n =>
          { n with hints := if n.hints.contains plane.toNat then n.hints else n.hints ++ [plane.toNat] }) s

/-- The slot of a carried plane in one of the two checkpoint buffers (R44, R282). -/
def ckSlot (c : PenCfg) (second : Bool) (a : Nat) : Nat :=
  c.ckslot + (if second then c.carried else 0) + (a - c.cbase)

/-- Whether buffer 1 is the valid one of a logical fold (R44). -/
def State.validBuf1 (s : State) (lf : Nat) : Bool := Store.get s.arr.buf1 false lf

/-- A carried plane of a fold has been copied. -/
def markCopied (pf a : Nat) (s : State) : State :=
  s.modFold pf fun f => { f with copied := if f.copied.contains a then f.copied else f.copied ++ [a] }

/-- The slot of a plane as a WRITEB to another fold's bank (R215, R446). -/
def sendPlane (pf b slot a : Nat) (s : State) : State :=
  match freeTag s (16 * (s.fold pf).lf) 16 with
  | none => s
  | some t => present (planeWrite (unitPkt s pf 2 b (64 * slot)) t ((List.range 64).map (rowOf (s.plane pf a)))) s

/-- Copy a carried plane of a fold to its alternate buffer. The fold's own bank takes it row by row, and where it is shut the plane stays
uncopied; a spare sends it to its logical fold's bank (R44, R45, R215, R217, R268). -/
def copyPlane (pf : Nat) (c : PenCfg) (a : Nat) (s : State) : State :=
  let lf := (s.fold pf).lf
  let slot := ckSlot c (!(s.validBuf1 lf)) a
  match s.bankOf lf with
  | none => s
  | some b =>
    if b ≠ pf then sendPlane pf b slot a (parityFail pf a (s.badRows pf a) true s)
    else if s.bankShut b then isolatedSent b s
    else
      let s := parityFail pf a (s.badRows pf a) true s
      markCopied pf a ((List.range 64).foldl (fun s y =>
        bankStore b (64 * slot + y) (rowOf (s.plane pf a) y) (portAccess b (unitPriority s b 3 2) 0 (64 * slot + y) true portCycles s)) s)

/-- Whether a copy of a plane is on its way from a fold to another fold's bank. -/
def copySent (s : State) (pf : Nat) (c : PenCfg) (a : Nat) : Bool :=
  let slot := ckSlot c (!(s.validBuf1 (s.fold pf).lf)) a
  s.dw.tags.any fun x => match x.2 with
    | none => false
    | some h => h.pkt.unit == 2 && h.pkt.src.toNat == pf && h.pkt.net == .data && h.pkt.word.toNat == 64 * slot

/-- Whether a fold's pen is in RUN-AHEAD or CANCEL: what reads its planes waits until it is back in NORMAL (R164). -/
def runsAhead (s : State) (pf : Nat) : Bool :=
  match s.penOfFold pf with
  | none => false
  | some p => match p.leader with
    | none => false
    | some l => (s.seq l).ra.isSome || (s.seq l).cancel.isSome

/-- CHECKPOINT_COPY: the fold copies the first hinted plane it has not copied; from G + 832 on what is left is abandoned (R34,
R45); the copy waits while the pen runs ahead (R164). -/
def checkpointCopy (pf : Nat) (s : State) : State :=
  match s.penOfFold pf with
  | none => s
  | some pen =>
    if s.frame.g832 || runsAhead s pf then s
    else
    match pen.hints.find? fun a => !((s.fold pf).copied.contains a) && !(copySent s pf pen.cfg a) with
    | none => s
    | some a => if (s.fold pf).power = .on then copyPlane pf pen.cfg a s else s

/-- Restore one row from the own bank: a word that cannot be read leaves it and marks the pen FAULTED (R46, R228). -/
def restoreRow (pf b slot a y : Nat) (s : State) : State :=
  match bankRead b (64 * slot + y) false (portAccess b 2 0 (64 * slot + y) false portCycles s) with
  | (.word v, s) => writeRow pf a y v false s
  | (_, s) => faultPenOf pf s

/-- A spare asks its logical fold's bank for the planes it still has to restore, one READ each, as far as its tags go (R215, R253, R446). -/
def sendRestores (pf b : Nat) (c : PenCfg) : Nat → State → State
  | 0, s => s
  | n + 1, s =>
    let lf := (s.fold pf).lf
    match (s.fold pf).owed, freeTag s (16 * lf) 16 with
    | a :: t, some g =>
      sendRestores pf b c n (present (planeRead (unitPkt s pf 2 b (64 * ckSlot c (s.validBuf1 lf) a)) g)
        (s.modFold pf fun f => { f with owed := t }))
    | _, _ => s

/-- Restore one carried plane of a fold from its valid buffer, a spare over the droveway (R46, R215, R228, R268, R446). -/
def restorePlane (pf : Nat) (c : PenCfg) (a : Nat) (s : State) : State :=
  let lf := (s.fold pf).lf
  let slot := ckSlot c (s.validBuf1 lf) a
  match s.bankOf lf with
  | none => faultPenOf pf s
  | some b =>
    if b ≠ pf then sendRestores pf b c 1 (s.modFold pf fun f => { f with owed := f.owed ++ [a] })
    else if s.bankShut b then faultPenOf pf (isolatedSent b s)
    else (List.range 64).foldl (fun s y => restoreRow pf b slot a y s) s

/-! ### The commands -/

/-- WEGO (R140). -/
def execWego (p : Fin 256) (cond : BitVec 2) (r : Fin 8) (engine : Fin 32) (mr : Fin 4) (s : State) : Out :=
  .next (wegoOp p cond r engine mr s)

/-- PLANE_OUT (R142). -/
def execPlaneOut (p : Fin 256) (cond : BitVec 2) (r : Fin 8) (bank : BitVec 8) (off : BitVec 6) (s : State) : Out :=
  .next (moveOp true p cond r bank off s)

/-- PLANE_IN (R142). -/
def execPlaneIn (p : Fin 256) (cond : BitVec 2) (r : Fin 8) (bank : BitVec 8) (off : BitVec 6) (s : State) : Out :=
  .next (moveOp false p cond r bank off s)

/-- PLANE_MOVE_COMPLETE (R146). -/
def execPlaneMoveComplete (pf : Fin 272) (s : State) : Out := .next (moveComplete pf s)

/-- HISTO (R147). -/
def execHisto (p : Fin 256) (cond : BitVec 2) (r : Fin 8) (widthM1 : BitVec 4) (remote : Bool) (off : BitVec 6)
    (s : State) : Out := .next (histoOp p cond r widthM1 remote off s)

/-- HISTO_PASS (R148). -/
def execHistoPass (pf : Fin 272) (s : State) : Out := .next (histoPass pf s)

/-- CKPT (R45). -/
def execCkpt (p : Fin 256) (cond : BitVec 2) (plane : BitVec 11) (s : State) : Out := .next (ckptOp p cond plane s)

/-- CHECKPOINT_COPY (R45). -/
def execCheckpointCopy (pf : Fin 272) (s : State) : Out := .next (checkpointCopy pf s)

end Sys2Proof.Machine
end

