-- ==== Sys2Proof/Machine/Engine.lean ====
section
/-! DEFINITION. The word engines: descriptors, operands in pasture and local memory, the cache, the operations, traps,
errors and postings (chapter 06). -/

namespace Sys2Proof.Machine

/-! ### Descriptors -/

/-- An element type (R175). -/
inductive ElemTy
  | fp (f : Fmt)
  | int (t : IntTy)
  deriving DecidableEq, Repr

/-- The type of a code; codes 0xA to 0xF are reserved (R175). -/
def elemTy : Nat → Option ElemTy
  | 0 => some (.fp binary64)
  | 1 => some (.fp binary32)
  | 2 => some (.int ⟨64, true⟩)
  | 3 => some (.int ⟨64, false⟩)
  | 4 => some (.int ⟨32, true⟩)
  | 5 => some (.int ⟨32, false⟩)
  | 6 => some (.int ⟨16, true⟩)
  | 7 => some (.int ⟨16, false⟩)
  | 8 => some (.int ⟨8, true⟩)
  | 9 => some (.int ⟨8, false⟩)
  | _ => none

/-- The width of a type in bits. -/
def ElemTy.width : ElemTy → Nat
  | .fp f => f.width
  | .int t => t.width

/-- The bytes of an element. -/
def ElemTy.size (t : ElemTy) : Nat := t.width / 8

/-- Whether a type is floating point. -/
def ElemTy.isFp : ElemTy → Bool
  | .fp _ => true
  | .int _ => false

/-- A descriptor, read from its 32 bytes (R174). -/
structure Desc where
  op : Nat
  dt : ElemTy
  st : ElemTy
  nocache : Bool
  immsel : Nat
  subop : Nat
  rm : Rm
  ten : Exc
  count : Nat
  a : Nat
  b : Nat
  c : Nat
  d : Nat
  imm : Nat

/-- The rounding mode of a code. -/
def rmOf : Nat → Rm
  | 0 => .rne
  | 1 => .rtz
  | 2 => .rup
  | _ => .rdn

/-- Whether an operation reads operand B (R179). -/
def Desc.usesB (d : Desc) : Bool := [1, 2, 3, 4, 5, 7, 8, 0xC, 0xD, 0xF].contains d.op

/-- The type of operand B: SCALE takes int32 (R179). -/
def Desc.typeB (d : Desc) : ElemTy := if d.op = 0xD then .int ⟨32, true⟩ else d.st

/-- Whether the result is one scalar (R181). -/
def Desc.scalar (d : Desc) : Bool := d.op = 0xE || d.op = 0xF

/-- The source extents in memory: address, element size, elements (R176). -/
def Desc.sources (d : Desc) : List (Nat × Nat × Nat) :=
  [(d.a, d.st.size, d.count)] ++
  (if d.usesB && d.immsel ≠ 1 then [(d.b, d.typeB.size, d.count)] else []) ++
  (if d.op = 4 && d.immsel ≠ 2 then [(d.c, d.st.size, d.count)] else [])

/-- The destination extents; DIV with SUBOP 0b01 has two (R179). -/
def Desc.dests (d : Desc) : List (Nat × Nat × Nat) :=
  [(d.d, d.dt.size, if d.scalar then 1 else d.count)] ++
  (if d.op = 5 && d.subop = 1 then [(d.c, d.dt.size, d.count)] else [])

/-- Whether a type combination, SUBOP and IMMSEL are allowed for the operation (R179); the IMMSEL values are the model's choice
(DESIGN CHOICE, log entry 129). -/
def Desc.allowed (d : Desc) : Bool :=
  let same := decide (d.dt = d.st)
  let sub0 := d.subop = 0
  (d.immsel = 0 || (d.immsel = 1 && d.usesB) || (d.immsel = 2 && d.op = 4)) &&
  (match d.op with
   | 0 | 1 | 2 | 3 | 7 | 8 | 9 | 0xA => same && sub0
   | 4 | 6 | 0xD | 0xF => same && sub0 && d.st.isFp
   | 5 => same && (if d.st.isFp then sub0 else d.subop ≤ 2)
   | 0xB => sub0
   | 0xC => !d.dt.isFp
   | 0xE => same && d.subop ≤ 2
   | _ => false)

/-- Whether an extent is aligned and lies inside pasture or local memory, its reserved address bits 0 (R176, R177). -/
def extentOk (x : Nat × Nat × Nat) : Bool :=
  let len := x.2.1 * x.2.2
  if 2 ^ 31 ≤ x.1 then
    let o := x.1 - 2 ^ 31
    o < 0x10000 && o % x.2.1 = 0 && o + len ≤ 0x10000
  else x.1 < 2 ^ 28 && x.1 % x.2.1 = 0 && x.1 + len ≤ 0x08800000

/-- Whether two extents overlap. -/
def overlaps (x y : Nat × Nat × Nat) : Bool :=
  x.1 < y.1 + y.2.1 * y.2.2 && y.1 < x.1 + x.2.1 * x.2.2

/-- Whether two extents are the same bytes. -/
def sameExtent (x y : Nat × Nat × Nat) : Bool := x.1 = y.1 && x.2.1 * x.2.2 = y.2.1 * y.2.2

/-- The descriptor of 32 bytes, none where R177 calls it undefined. -/
def parseDesc (l : List Byte) : Option Desc :=
  let b0 := leAt l 0 1
  let b1 := leAt l 1 1
  let b2 := leAt l 2 1
  let b3 := leAt l 3 1
  match elemTy (b1 % 16), elemTy (b1 / 16) with
  | some st, some dt =>
    let d : Desc :=
      { op := b0 % 64, dt := dt, st := st, nocache := b2 / 64 % 2 = 1, immsel := b2 / 16 % 4, subop := b2 / 4 % 4,
        rm := rmOf (b2 % 4), ten := BitVec.ofNat 7 b3, count := leAt l 4 3, a := leAt l 8 4, b := leAt l 12 4,
        c := leAt l 16 4, d := leAt l 20 4, imm := leAt l 24 8 }
    if b0 < 64 && b2 < 128 && b3 < 128 && leAt l 7 1 = 0 && d.count ≠ 0 && d.allowed &&
        (d.sources ++ d.dests).all extentOk &&
        d.dests.all (fun x => d.sources.all fun y => !(overlaps x y) || sameExtent x y) then some d
    else none
  | _, _ => none

/-! ### Engines -/

/-- A word engine. -/
def State.engine (s : State) (e : Nat) : Engine := Store.get s.eng.units {} e

/-- Change a word engine. -/
def State.modEng (s : State) (e : Nat) (g : Engine → Engine) : State :=
  { s with eng := { s.eng with units := Store.set s.eng.units {} e (g (s.engine e)) } }

/-- The FIELD part PF, MR and EPOCH of a trap or error record. -/
def recordOf (x : Dispatch) : Word := bit32 x.fep 17 ||| at32 x.mr 15 ||| at32 x.pf 0

/-- The cause of a trap: the exception of highest priority, in the order NV, DZ, OF, UF, NX, then IDZ, IOV (R198). -/
def trapCause (x : Exc) : Nat :=
  if bit x 4 then 2 else if bit x 3 then 3 else if bit x 2 then 4 else if bit x 1 then 5
  else if bit x 0 then 6 else if bit x 5 then 7 else 8

/-- A trap: the record if free, the count, and TRAP once in a frame (R198, R201). -/
def trapEngine (e : Nat) (x : Dispatch) (cause : Nat) (exc : Exc) (elem : Nat) (s : State) : State :=
  let s := s.count .evcnt e 31 16 1
  let s := if bit (s.reg .traprec0 e) 31 then s
    else
      let s := (s.setReg .traprec0 e 0 (at32 cause 26 ||| at32 exc.toNat 18 ||| recordOf x)).raise .traprec0 e (bit32 true 31)
      let s := s.setReg .traprec1 e 0 (at32 elem 0)
      (List.range 8).foldl (fun (s : State) i => s.setReg .trapdesc e i (BitVec.ofNat 32 (leAt x.bytes (4 * i) 4))) s
  if (s.engine e).trapFired then s
  else (fire (1152 + 2 * e) 0 s).modEng e fun g => { g with trapFired := true }

/-- An error: the record if free, the count, and ERROR once in a frame (R200, R201). -/
def errEngine (e : Nat) (x : Dispatch) (cause elem : Nat) (s : State) : State :=
  let s := s.count .evcnt e 15 0 1
  let s := if bit (s.reg .errrec0 e) 31 then s
    else
      let s := (s.setReg .errrec0 e 0 (at32 cause 24 ||| recordOf x)).raise .errrec0 e (bit32 true 31)
      s.setReg .errrec1 e 0 (at32 elem 0)
  if (s.engine e).errFired then s
  else (fire (1152 + 2 * e + 1) 0 s).modEng e fun g => { g with errFired := true }

/-! ### Operands -/

/-- What an access to an operand gives: a value, or the cause of an error (ERRREC0.CAUSE). -/
inductive ElemAns
  | val (x : Nat)
  | err (cause : Nat)
  deriving DecidableEq, Repr

/-- Read an element of local memory (R172). -/
def localRead (e off size : Nat) (s : State) : ElemAns × State :=
  let v := leNat (memBytes s.eng.mem (65536 * e + off) size)
  match Store.get s.eng.ecc .good (8192 * e + off / 8) with
  | .good => (.val v, s)
  | .single => (.val v, s.count .engEcccnt e 31 16 1)
  | .double => (.err 4, s.count .engEcccnt e 15 0 1)

/-- Store bytes in local memory with a fresh code. -/
def localStore (e off : Nat) (l : List Byte) (s : State) : State :=
  { s with eng := { s.eng with mem := memSetBytes s.eng.mem (65536 * e + off) l
                               ecc := Store.set s.eng.ecc .good (8192 * e + off / 8) .good } }

/-- Write an element of local memory; a part of a word needs the rest of it, so its code is checked (R172). -/
def localWrite (e off size v : Nat) (s : State) : Option Nat × State :=
  if size = 8 then (none, localStore e off (leBytes 8 v) s)
  else
    match localRead e off size s with
    | (.err c, s) => (some c, s)
    | (_, s) => (none, localStore e off (leBytes size v) s)

/-- The line of a cache that holds a pasture line. -/
def cachedLine (g : Engine) (line : Nat) : Option CacheLine := g.cache.find? (·.line == line)

/-- The set of a line (R210): 16 sets, by the low line address bits. -/
def setOfLine (line : Nat) : Nat := line % 16

/-- Put a line at the end of the cache, the line of its set used longest ago dropped when all four ways are full
(R210). -/
def installLine (x : CacheLine) (l : List CacheLine) : List CacheLine :=
  let l := l.filter fun y => !(y.line == x.line)
  if (l.filter fun y => setOfLine y.line == setOfLine x.line).length < 4 then l ++ [x]
  else
    match l.find? fun y => setOfLine y.line == setOfLine x.line with
    | none => l ++ [x]
    | some v => l.filter (fun y => !(y.line == v.line)) ++ [x]

/-- A request of an engine for a bank: best effort, with the urgency of its node, and the first free tag of its own (R40, R248, R253, R260,
R517). -/
def engPkt (s : State) (e b word : Nat) : Pkt :=
  let n := engineNode e
  { src := BitVec.ofNat 9 n, dst := BitVec.ofNat 9 b, unit := 4, tag := (freeTag s (4096 + 64 * e) 64).getD noTag, fepv := true
    fep := (s.epochsAt n).1, tep := s.dw.tep, vc := 1, urg := BitVec.ofNat 4 (s.rf .nodeCfg n 7 4), word := BitVec.ofNat 16 word }

/-- One word at an open bank for a best-effort request, in its turn at the port (R216, R217). -/
def portRead (b w urg : Nat) (s : State) : BankAns × State := bankRead b w false (portAccess b 6 urg w false portCycles s)

/-- Read the words of a line at an open bank one by one: none of them when one cannot be read (R216, R228). -/
def readLine (b w urg : Nat) : Nat → State → Option (List Dword) × State
  | 0, s => (some [], s)
  | n + 1, s =>
    let x := portRead b w urg s
    let y := readLine b (w + 1) urg n x.2
    match x.1, y.1 with
    | .word v, some l => (some (v :: l), y.2)
    | _, _ => (none, y.2)

/-- The RDATAB of a line fill (R249). -/
def lineData (s : State) (b : Nat) (p : Pkt) (l : List Dword) : Pkt :=
  let r := reply s b p 0x12 l
  { r with net := .data, vc := p.vc, len := 7, word := p.word, body := { r.body with flits := 3 } }

/-- Fill a line into the cache of an engine: a READ with LEN = 7, carried at once (R210, R249, R262; log entry 94). -/
def fillLine (e line : Nat) (s : State) : Option CacheLine × State :=
  let b := line / 8192
  let p := { engPkt s e b (8 * line % 65536) with type := 1, len := 7 }
  match readLine b (8 * line % 65536) p.urg.toNat 8 (travel p s) with
  | (none, s) => (none, travel (errorReply s b p 4) s)
  | (some l, s) =>
    let x : CacheLine := ⟨line, l⟩
    let s := travel (lineData s b p l) (holdLine b (line % 8192) e s)
    (some x, (s.count .cachecnt e 31 16 1).modEng e fun g => { g with cache := installLine x g.cache })

/-- The bytes of an element inside a word. -/
def partOf (w : Dword) (a size : Nat) : Nat := w.toNat / 2 ^ (8 * (a % 8)) % 2 ^ (8 * size)

/-- Read an element of pasture: a whole word past the cache, or the line through it, or a line that serves the waiting elements
only (R174, R200, R210, R212). -/
def pastRead (e a size : Nat) (nocache : Bool) (s : State) : ElemAns × State :=
  let b := a / 0x80000
  let refused := s.refusedAt (engineNode e) b
  if nocache then
    match refused with
    | some n => (.err 1, refusedTrip n { engPkt s e b (a % 0x80000 / 8) with type := 1 } s)
    | none =>
      let p := { engPkt s e b (a % 0x80000 / 8) with type := 1 }
      match portRead b (a % 0x80000 / 8) p.urg.toNat (travel p s) with
      | (.word v, s) => (.val (partOf v a size), travel (reply s b p 2 [v]) s)
      | (_, s) => (.err 4, travel (errorReply s b p 4) s)
  else
    match cachedLine (s.engine e) (a / 64) with
    | some x =>
      (.val (partOf (x.words.getD (a / 8 % 8) 0) a size), s.modEng e fun g => { g with cache := installLine x g.cache })
    | none =>
      match (s.engine e).served.find? (·.line == a / 64) with
      | some x => (.val (partOf (x.words.getD (a / 8 % 8) 0) a size), s)
      | none =>
      match refused with
      | some n => (.err 1, refusedTrip n { engPkt s e b (a / 64 * 8 % 65536) with type := 1, len := 7 } s)
      | none =>
        match fillLine e (a / 64) s with
        | (none, s) => (.err 4, s)
        | (some x, s) => (.val (partOf (x.words.getD (a / 8 % 8) 0) a size), s)

/-- A cached line with bytes of one of its words replaced (R210). -/
def CacheLine.put (x : CacheLine) (a : Nat) (m : BitVec 8) (v : Dword) : CacheLine :=
  let o := x.words.getD (a / 8 % 8) 0
  { x with words := x.words.set (a / 8 % 8) ((o &&& ~~~(maskBytes m)) ||| (v &&& maskBytes m)) }

/-- The WRITE1 of an engine for an element of pasture (R200, R249). -/
def writePkt (s : State) (e a size v : Nat) : Pkt :=
  let m : BitVec 8 := BitVec.ofNat 8 ((2 ^ size - 1) <<< (a % 8))
  { engPkt s e (a / 0x80000) (a % 0x80000 / 8) with
    type := 2, bmask := m, body := { ackreq := true, payload := [BitVec.ofNat 64 (v <<< (8 * (a % 8)))], flits := 2 } }

/-- Write an element of pasture: a WRITE1 to the bank, carried at once, and into the line the cache holds, whose place in the order of use
stays (R200, R210, R216; log entries 94 and 95). -/
def pastWrite (e a size v : Nat) (s : State) : Option Nat × State :=
  let b := a / 0x80000
  let p := writePkt s e a size v
  match s.refusedAt (engineNode e) b with
  | some n => (some 1, refusedTrip n p s)
  | none =>
    let m : BitVec 8 := BitVec.ofNat 8 ((2 ^ size - 1) <<< (a % 8))
    let d : Dword := BitVec.ofNat 64 (v <<< (8 * (a % 8)))
    let w := a % 0x80000 / 8
    let s := bankWrite b w m d (portAccess b 6 p.urg.toNat w true portCycles (travel p s))
    let s := if m = 0xFF then s else occupy b s
    let s := travel (reply s b p 1 []) s
    (none, s.modEng e fun g => { g with cache := g.cache.map fun x => if x.line = a / 64 then x.put a m d else x })

/-- Read element `k` of an operand at an address field (R176). -/
def readElem (e addr size k : Nat) (nocache : Bool) (s : State) : ElemAns × State :=
  if 2 ^ 31 ≤ addr then localRead e (addr - 2 ^ 31 + k * size) size s
  else pastRead e (addr + k * size) size nocache s

/-- Write element `k` of a destination at an address field (R176). -/
def writeElem (e addr size k v : Nat) (s : State) : Option Nat × State :=
  if 2 ^ 31 ≤ addr then localWrite e (addr - 2 ^ 31 + k * size) size v s
  else pastWrite e (addr + k * size) size v s

/-- Read operands A, B and C of element `k`, those the operation uses, in that order; what it does not use is 0. -/
def readOperands (e : Nat) (d : Desc) (k : Nat) (s : State) : Except Nat (Nat × Nat × Nat) × State :=
  match readElem e d.a d.st.size k d.nocache s with
  | (.err c, s) => (.error c, s)
  | (.val a, s) =>
    let (rb, s) := if !d.usesB then (ElemAns.val 0, s)
      else if d.immsel = 1 then (.val (d.imm % 2 ^ d.typeB.width), s)
      else readElem e d.b d.typeB.size k d.nocache s
    match rb with
    | .err c => (.error c, s)
    | .val b =>
      let (rc, s) := if d.op ≠ 4 then (ElemAns.val 0, s)
        else if d.immsel = 2 then (.val (d.imm % 2 ^ d.st.width), s)
        else readElem e d.c d.st.size k d.nocache s
      match rc with
      | .err c => (.error c, s)
      | .val c => (.ok (a, b, c), s)

/-! ### Operations -/

/-- The environment of an engine and a descriptor (R174, R194). -/
def fpEnv (s : State) (e : Nat) (d : Desc) : FpEnv :=
  ⟨d.rm, bit (s.reg .engCtrl e) 0, bit (s.reg .engCtrl e) 1⟩

/-- The condition of a COMPARE's SUBOP (R179). -/
def cmpOf : Nat → CmpFn
  | 0 => .eq
  | 1 => .lt
  | 2 => .le
  | _ => .un

/-- COPY (R179). -/
def engCopy (d : Desc) (x : Nat) : Nat × Exc := (x % 2 ^ d.st.width, 0)

/-- ADD and SUB (R186, R191). -/
def engAddSub (sub : Bool) (d : Desc) (env : FpEnv) (x y : Nat) : Nat × Exc :=
  match d.st with
  | .fp f =>
    let b := Fp.decode f env.daz y
    fpAdd f env (Fp.decode f env.daz x) (if sub then fpNeg b else b)
  | .int t => t.wrap (if sub then t.val x - t.val y else t.val x + t.val y)

/-- MUL (R179, R186, R191). -/
def engMul (d : Desc) (env : FpEnv) (x y : Nat) : Nat × Exc :=
  match d.st with
  | .fp f => fpMul f env (Fp.decode f env.daz x) (Fp.decode f env.daz y)
  | .int t => t.wrap (t.val x * t.val y)

/-- FMA (R179, R191). -/
def engFma (d : Desc) (env : FpEnv) (x y z : Nat) : Nat × Exc :=
  match d.st with
  | .fp f => fpFma f env (Fp.decode f env.daz x) (Fp.decode f env.daz y) (Fp.decode f env.daz z)
  | .int _ => (0, 0)

/-- DIV: the quotient, or the remainder with SUBOP 0b10 (R179, R188, R206). -/
def engDiv (d : Desc) (env : FpEnv) (x y : Nat) : Nat × Exc :=
  match d.st with
  | .fp f => fpDiv f env (Fp.decode f env.daz x) (Fp.decode f env.daz y)
  | .int t => let r := t.divOp x y; (if d.subop = 2 then r.2.1 else r.1, r.2.2)

/-- SQRT (R208). -/
def engSqrt (d : Desc) (env : FpEnv) (x : Nat) : Nat × Exc :=
  match d.st with
  | .fp f => fpSqrt f env (Fp.decode f env.daz x)
  | .int _ => (0, 0)

/-- MIN and MAX (R186, R196). -/
def engMinMax (isMax : Bool) (d : Desc) (env : FpEnv) (x y : Nat) : Nat × Exc :=
  match d.st with
  | .fp f => fpMinMax f env isMax (Fp.decode f env.daz x) (Fp.decode f env.daz y)
  | .int t => (if (t.val x < t.val y) = isMax then (y % 2 ^ t.width, 0) else (x % 2 ^ t.width, 0))

/-- ABS: a bit pattern for FP types, NaNs as well (R186, R194; DESIGN CHOICE, log entry 131). -/
def engAbs (d : Desc) (x : Nat) : Nat × Exc :=
  match d.st with
  | .fp f => (x % 2 ^ (f.width - 1), 0)
  | .int t => t.absOp x

/-- NEG: a bit pattern for FP types, NaNs as well (R186, R194; DESIGN CHOICE, log entry 131). -/
def engNeg (d : Desc) (x : Nat) : Nat × Exc :=
  match d.st with
  | .fp f => ((x + 2 ^ (f.width - 1)) % 2 ^ f.width, 0)
  | .int t => t.wrap (-(t.val x))

/-- CONVERT (R187, R197, R209). -/
def engConvert (d : Desc) (env : FpEnv) (x : Nat) : Nat × Exc :=
  match d.st, d.dt with
  | .fp f, .fp g => fpConvert g env (Fp.decode f env.daz x)
  | .fp f, .int t => fpToIntOp t env.rm (Fp.decode f env.daz x)
  | .int t, .fp g => roundInt g env (t.val x) 0 false
  | .int t, .int u => let r := u.saturate (t.val x); (r.1, if r.2 then 0 else excIOV)

/-- COMPARE (R179, R186, R196). -/
def engCompare (d : Desc) (env : FpEnv) (x y : Nat) : Nat × Exc :=
  match d.st with
  | .fp f =>
    let r := fpCompare (cmpOf d.subop) (Fp.decode f env.daz x) (Fp.decode f env.daz y)
    (r.1.toNat, r.2)
  | .int t => ((t.cmpOp (cmpOf d.subop) x y).toNat, 0)

/-- SCALE (R179, R191). -/
def engScale (d : Desc) (env : FpEnv) (x y : Nat) : Nat × Exc :=
  match d.st with
  | .fp f => fpScale f env (Fp.decode f env.daz x) (signedOf 32 y)
  | .int _ => (0, 0)

/-- One element of an element-wise operation (R179). -/
def elemOp (d : Desc) (env : FpEnv) (x : Nat × Nat × Nat) : Nat × Exc :=
  match d.op with
  | 0 => engCopy d x.1
  | 1 => engAddSub false d env x.1 x.2.1
  | 2 => engAddSub true d env x.1 x.2.1
  | 3 => engMul d env x.1 x.2.1
  | 4 => engFma d env x.1 x.2.1 x.2.2
  | 5 => engDiv d env x.1 x.2.1
  | 6 => engSqrt d env x.1
  | 7 => engMinMax false d env x.1 x.2.1
  | 8 => engMinMax true d env x.1 x.2.1
  | 9 => engAbs d x.1
  | 0xA => engNeg d x.1
  | 0xB => engConvert d env x.1
  | 0xC => engCompare d env x.1 x.2.1
  | _ => engScale d env x.1 x.2.1

/-- The remainder an integer DIV with SUBOP 0b01 writes to C (R188). -/
def remOp (d : Desc) (x : Nat × Nat × Nat) : Option Nat :=
  match d.op, d.subop, d.st with
  | 5, 1, .int t => some (t.divOp x.1 x.2.1).2.1
  | _, _, _ => none

/-- How a descriptor stands after some of its elements. -/
inductive RunEnd
  /-- Every element asked for is done: the exceptions raised, and the scalar of a REDUCE or DOT. -/
  | done (exc : Exc) (scalar : Nat)
  | trap (exc : Exc) (elem : Nat)
  | error (cause elem : Nat)
  deriving DecidableEq, Repr

/-- Set the FLAGS of an engine: the exceptions whose TEN bit is 0 (R199). -/
def setEngFlags (e : Nat) (x : Exc) (s : State) : State :=
  if x = 0 then s else s.raise .engFlags e (BitVec.ofNat 32 x.toNat)

/-- The extent of one element of a destination. -/
def elemExtent (addr size k : Nat) : Nat × Nat × Nat := (addr + k * size, size, 1)

/-- A result, or a free value where another result of the descriptor is written to some of its bytes: the spec fixes no order
of the two (log entry 4). -/
def orFree (clash : Bool) (w v : Nat) (s : State) : Nat × State :=
  if clash then (let x := s.draw 64; (x.1.toNat % 2 ^ w, x.2)) else (v, s)

/-- What keeps an element of a destination from being written, if anything does: a hurdle or a lost bridge on its way, or an
uncorrectable word of local memory of which it is a part (R172, R200). -/
def writeBarred (e addr size k v : Nat) (s : State) : Option Nat × State :=
  if addr < 2 ^ 31 then
    match s.refusedAt (engineNode e) ((addr + k * size) / 0x80000) with
    | some n => (some 1, refusedTrip n (writePkt s e (addr + k * size) size v) s)
    | none => (none, s)
  else
    let off := addr - 2 ^ 31 + k * size
    if size ≠ 8 && Store.get s.eng.ecc .good (8192 * e + off / 8) = .double then (some 4, s.count .engEcccnt e 15 0 1)
    else (none, s)

/-- Write the results of one element, the quotient and with it the remainder: an element one of whose writes fails is not
written (R179, R198, R200). Of the two writes the remainder's is looked at first, so that its cause is reported where both fail (DESIGN
CHOICE, log entry 120). The descriptor writes its first `w` elements: they are what a result may share bytes with. -/
def writeResults (e : Nat) (d : Desc) (w k v : Nat) (r : Option Nat) (s : State) : Option Nat × State :=
  match r with
  | none => writeElem e d.d d.dt.size k v s
  | some m =>
    let (fv, s) := orFree (overlaps (elemExtent d.d d.dt.size k) (d.c, d.dt.size, w)) d.dt.width v s
    let (fm, s) := orFree (overlaps (elemExtent d.c d.dt.size k) (d.d, d.dt.size, w)) d.dt.width m s
    match writeBarred e d.c d.dt.size k fm s with
    | (some c, s) => (some c, s)
    | (none, s) =>
      match writeElem e d.d d.dt.size k fv s with
      | (some c, s) => (some c, s)
      | (none, s) => writeElem e d.c d.dt.size k fm s

/-- The next `n` elements of an element-wise descriptor from element `k`, of which it writes the first `w` in all (R198 to R200). -/
def runElems (e : Nat) (d : Desc) (env : FpEnv) (w : Nat) : Nat → Nat → Exc → State → RunEnd × State
  | 0, _, acc, s => (.done acc 0, s)
  | n + 1, k, acc, s =>
    match readOperands e d k s with
    | (.error c, s) => (.error c k, s)
    | (.ok x, s) =>
      let r := elemOp d env x
      if r.2 &&& d.ten ≠ 0 then (.trap r.2 k, s)
      else
        match writeResults e d w k r.1 (remOp d x) s with
        | (some c, s) => (.error c k, s)
        | (none, s) => runElems e d env w n (k + 1) (acc ||| r.2) (setEngFlags e r.2 s)

/-- How many of `n` elements a run has written at its end. -/
def RunEnd.written (n : Nat) : RunEnd → Nat
  | .done _ _ => n
  | .trap _ k => k
  | .error _ k => k

/-- How many elements of a descriptor the engine writes of the first `n`: no result that another one overwrites changes it. -/
def writtenOf (e : Nat) (d : Desc) (n : Nat) (s : State) : Nat :=
  if d.op = 5 && d.subop = 1 then ((runElems e d (fpEnv s e d) 0 n 0 0 s).1).written n else n

/-! ### Reductions -/

/-- The lanes of a reduction (R171). -/
def Desc.lanes (d : Desc) : Nat := if d.st.size = 8 then 8 else 16

/-- What a lane starts from: −0 or 0 for SUM and DOT, nothing for MIN and MAX (R181). -/
def Desc.laneStart (d : Desc) : Option Nat :=
  if d.op = 0xE && d.subop ≠ 0 then none
  else match d.st with
    | .fp f => some (2 ^ (f.width - 1))
    | .int _ => some 0

/-- Two values combined: SUM, MIN or MAX; integer SUM wraps without IOV (R181, R186). -/
def combine (d : Desc) (env : FpEnv) (x y : Nat) : Nat × Exc :=
  if d.op = 0xE && d.subop ≠ 0 then engMinMax (d.subop = 2) d env x y
  else match d.st with
    | .fp _ => engAddSub false d env x y
    | .int t => ((t.wrap (t.val x + t.val y)).1, 0)

/-- One accumulation step of a lane (R181). -/
def laneStep (d : Desc) (env : FpEnv) (lane : Option Nat) (x y : Nat) : Nat × Exc :=
  match lane with
  | none => combine d env x x
  | some v => if d.op = 0xF then engFma d env x y v else combine d env v x

/-- The accumulation of the next `n` elements from element `k`. -/
def runLanes (e : Nat) (d : Desc) (env : FpEnv) :
    Nat → Nat → Exc → List (Option Nat) → State → (RunEnd × List (Option Nat)) × State
  | 0, _, acc, l, s => ((.done acc 0, l), s)
  | n + 1, k, acc, l, s =>
    match readOperands e d k s with
    | (.error c, s) => ((.error c k, l), s)
    | (.ok x, s) =>
      let j := k % d.lanes
      let r := laneStep d env (l.getD j none) x.1 x.2.1
      if r.2 &&& d.ten ≠ 0 then ((.trap r.2 k, l), s)
      else runLanes e d env n (k + 1) (acc ||| r.2) (l.set j (some r.1)) (setEngFlags e r.2 s)

/-- One level of the combining tree: pairs (0, 1), (2, 3) and so on (R181); an empty lane of SUM and DOT takes part as −0
(DESIGN CHOICE, log entry 130). -/
def treeLevel (d : Desc) (env : FpEnv) : List (Option Nat) → List (Option Nat) × Exc
  | x :: y :: t =>
    let r := treeLevel d env t
    match x, y with
    | some a, some b => let v := combine d env a b; (some v.1 :: r.1, v.2 ||| r.2)
    | some a, none => (some a :: r.1, r.2)
    | none, b => (b :: r.1, r.2)
  | l => (l, 0)

/-- The combining tree, level by level, until one value remains (R181). -/
def tree (d : Desc) (env : FpEnv) : Nat → List (Option Nat) → Exc → Nat × Exc
  | 0, l, x => (((l.head?.getD none).getD 0), x)
  | n + 1, l, x =>
    let r := treeLevel d env l
    tree d env n r.1 (x ||| r.2)

/-- A whole REDUCE or DOT, of which `n` elements are accumulated; the tree and the write follow the last one (R181,
R198). -/
def runReduce (e : Nat) (d : Desc) (env : FpEnv) (n : Nat) (s : State) : RunEnd × State :=
  match runLanes e d env n 0 0 (List.replicate d.lanes d.laneStart) s with
  | ((.done acc _, l), s) =>
    if n < d.count then (.done acc 0, s)
    else
      let r := tree d env 4 l 0
      if r.2 &&& d.ten ≠ 0 then (.trap r.2 d.count, s)
      else
        match writeElem e d.d d.dt.size 0 r.1 s with
        | (some c, s) => (.error c 0, s)
        | (none, s) => (.done (acc ||| r.2) r.1, setEngFlags e r.2 s)
  | ((x, _), s) => (x, s)

/-! ### The queue -/

/-- The descriptor at the head of an engine's queue has ended. -/
def dropHead (e : Nat) (s : State) : State := s.modEng e fun g => { g with queue := g.queue.drop 1, served := [] }

/-- The descriptors that start and are undefined end at once with ILLEGAL, until the head is defined or the queue is empty
(R177, R182). -/
def startNext (e : Nat) : Nat → State → State
  | 0, s => s
  | n + 1, s =>
    match (s.engine e).queue with
    | [] => s
    | x :: _ =>
      match parseDesc x.bytes with
      | some _ => s
      | none => startNext e n (dropHead e (trapEngine e x 1 0 0 s))

/-- The value a completed descriptor posts (R184). -/
def postValue (d : Desc) (exc : Exc) (scalar : Nat) : Dword :=
  if d.scalar then
    match d.st with
    | .int t => if t.sgn then BitVec.ofInt 64 (signedOf t.width scalar) else BitVec.ofNat 64 scalar
    | .fp _ => BitVec.ofNat 64 scalar
  else BitVec.ofNat 64 (exc.toNat <<< 40 + d.count)

/-- The MRPOST packet of a posting (R250). -/
def postPkt (s : State) (x : Post) : Pkt :=
  { net := .rsp, type := 4, dst := BitVec.ofNat 9 x.pf, src := BitVec.ofNat 9 (engineNode x.engine), unit := 3, tag := noTag, fepv := true
    fep := x.fep, tep := s.dw.tep, vc := 1, body := { mri := BitVec.ofNat 2 x.mr, payload := [x.value] } }

/-- A descriptor completes: it is counted and posts its value (R184). -/
def postResult (e : Nat) (x : Dispatch) (d : Desc) (exc : Exc) (scalar : Nat) (s : State) : State :=
  let y : Post := ⟨x.engine, x.pf, x.mr, x.id, x.fep, postValue d exc scalar⟩
  let s := (s.count .donecnt e 31 0 1).emit (.packet (postPkt s y))
  { s with eng := { s.eng with posts := s.eng.posts ++ [y] } }

/-- Run up to `n` elements of a descriptor. -/
def runDesc (e : Nat) (d : Desc) (n : Nat) (s : State) : RunEnd × State :=
  if d.scalar then runReduce e d (fpEnv s e d) n s else runElems e d (fpEnv s e d) (writtenOf e d n s) n 0 0 s

/-- Whether an engine holds its next request: it has no free tag for what the descriptor asks of pasture (R253). -/
def engHolds (e : Nat) (d : Desc) (s : State) : Bool :=
  (d.sources ++ d.dests).any (fun x => x.1 < 2 ^ 31) && (freeTag s (4096 + 64 * e) 64).isNone

/-- How many elements, of `n`, a descriptor that does not complete has got through (R33, R200, R253). -/
def reached (e : Nat) (d : Desc) (n : Nat) (s : State) : Nat := if engHolds e d s then 0 else min n (d.count - 1)

/-- The head of an engine's queue runs to its end when it is the operation asked for, and the next one starts (R182, R184,
R185, R198). -/
def runHead (op : Nat) (sub : Option Nat) (e : Nat) (s : State) : State :=
  match (s.engine e).queue with
  | [] => s
  | x :: _ =>
    match parseDesc x.bytes with
    | none => s
    | some d =>
      if d.op ≠ op || (match sub with | none => false | some k => d.subop ≠ k) || engHolds e d s then s
      else
        let s := match runDesc e d d.count s with
          | (.done exc v, s) => postResult e x d exc v s
          | (.trap exc k, s) => trapEngine e x (trapCause (exc &&& d.ten)) exc k s
          | (.error c k, s) => errEngine e x c k s
        startNext e 8 (dropHead e s)

/-- Clear PENDING of the MR a descriptor was dispatched for, while that dispatch still owns it (R127). -/
def clearPend (x : Dispatch) (s : State) : State :=
  s.modSeq x.pf fun q => if q.mrOwner[x.mr % 4]! = x.id then { q with mrPend := q.mrPend &&& ~~~(1#4 <<< (x.mr % 4)) } else q

/-- A descriptor abandoned at guard-band cycle G: ERROR with the first element not written, of a REDUCE or DOT the first one not
accumulated (R33, R200; log entry 91). -/
def abandon (e : Nat) (x : Dispatch) (elem : Nat) (s : State) : State := clearPend x (errEngine e x 5 elem s)

/-- Guard-band step 1 for one engine, which has written `n` elements of the descriptor that runs: the rest of it, the
queue and the descriptors on their way to it are abandoned (R32, R33; log entry 91). -/
def abandonEngine (e n : Nat) (s : State) : State :=
  let s := match (s.engine e).queue with
    | [] => s
    | x :: t =>
      let s := match parseDesc x.bytes with
        | none => trapEngine e x 1 0 0 s
        | some d =>
          let k := reached e d n s
          match runDesc e d k s with
          | (.done _ _, s) => abandon e x k s
          | (.trap exc k, s) => trapEngine e x (trapCause (exc &&& d.ten)) exc k s
          | (.error c k, s) => errEngine e x c k s
      t.foldl (fun s y => abandon e y 0 s) s
  let mine := s.arr.flight.filter (·.engine == e)
  let s := mine.foldl (fun s y => abandon e y 0 s) s
  let s := { s with arr := { s.arr with flight := s.arr.flight.filter fun y => !(y.engine == e) } }
  s.modEng e fun g => { g with queue := [], served := [] }

/-- DISPATCH: the oldest descriptor on its way to the engine arrives, of whatever fold (R173, R182, R183; log entry 96). -/
def dispatchOp (e : Nat) (s : State) : State :=
  match s.arr.flight.find? (·.engine == e) with
  | none => s
  | some x =>
    match atLocal (engineNode e) .req 4 (fun p => p.type = 7 && p.body.eng.toNat == e % 4 && p.src.toNat == x.pf) s with
    | none => s
    | some s =>
    let s := { s with arr := { s.arr with flight := s.arr.flight.erase x } }
    let p := { dispatchPkt s x with fep := x.fep, tag := noTag }
    if (s.cutAt x.pf (engineNode e)).isSome then refuse ((s.cutAt x.pf (engineNode e)).getD 0) p s
    else if (s.engine e).power != .on || (s.engine e).hurdle != .opened then refuse (engineNode e) p s
    else if 8 ≤ (s.engine e).queue.length then errEngine e x 6 0 s
    else startNext e 1 (s.modEng e fun g => { g with queue := g.queue ++ [x] })

/-- A posting lands, of those on their way to the fold the one whose descriptor completed first: behind a hurdle or a lost bridge it is
absorbed and counted, stale it is counted and absorbed, for an MR that a later dispatch owns it is discarded, else it sets READY and clears
PENDING (R41, R127, R140, R184, R271, R274; log entry 96). -/
def mrpostOp (pf : Nat) (s : State) : State :=
  match s.eng.posts.find? (·.pf == pf) with
  | none => s
  | some x =>
    match atLocal pf .rsp 4 (fun p => p.type = 4 && p.src.toNat == engineNode x.engine && p.body.mri.toNat == x.mr % 4) s with
    | none => s
    | some s =>
    let s := { s with eng := { s.eng with posts := s.eng.posts.erase x } }
    if (s.cutAt (engineNode x.engine) pf).isSome then
      s.count .nodeErrcnt1 ((s.cutAt (engineNode x.engine) pf).getD pf) 15 0 1
    else if (s.fold pf).hurdle != .opened then s.count .nodeErrcnt1 pf 15 0 1
    else if x.fep ≠ bit s.frame.epoch 0 then s.count .stalecnt 0 31 0 1
    else
      s.modSeq pf fun q =>
        if q.mrOwner[x.mr % 4]! ≠ x.id then q
        else
          { q with mr := q.mr.set! (x.mr % 4) x.value
                   mrReady := q.mrReady ||| (1#4 <<< (x.mr % 4))
                   mrPend := q.mrPend &&& ~~~(1#4 <<< (x.mr % 4)) }

/-! ### The commands -/

/-- DISPATCH (R182, R183). -/
def execDispatch (e : Fin 32) (s : State) : Out := .next (dispatchOp e s)

/-- ENG_COPY (R179). -/
def execEngCopy (e : Fin 32) (s : State) : Out := .next (runHead 0 none e s)

/-- ENG_ADD (R179). -/
def execEngAdd (e : Fin 32) (s : State) : Out := .next (runHead 1 none e s)

/-- ENG_SUB (R179). -/
def execEngSub (e : Fin 32) (s : State) : Out := .next (runHead 2 none e s)

/-- ENG_MUL (R179). -/
def execEngMul (e : Fin 32) (s : State) : Out := .next (runHead 3 none e s)

/-- ENG_FMA (R179). -/
def execEngFma (e : Fin 32) (s : State) : Out := .next (runHead 4 none e s)

/-- ENG_DIV (R179, R188). -/
def execEngDiv (e : Fin 32) (s : State) : Out := .next (runHead 5 none e s)

/-- ENG_SQRT (R179). -/
def execEngSqrt (e : Fin 32) (s : State) : Out := .next (runHead 6 none e s)

/-- ENG_MIN (R179, R196). -/
def execEngMin (e : Fin 32) (s : State) : Out := .next (runHead 7 none e s)

/-- ENG_MAX (R179, R196). -/
def execEngMax (e : Fin 32) (s : State) : Out := .next (runHead 8 none e s)

/-- ENG_ABS (R179). -/
def execEngAbs (e : Fin 32) (s : State) : Out := .next (runHead 9 none e s)

/-- ENG_NEG (R179). -/
def execEngNeg (e : Fin 32) (s : State) : Out := .next (runHead 0xA none e s)

/-- ENG_CONVERT (R179, R187, R197). -/
def execEngConvert (e : Fin 32) (s : State) : Out := .next (runHead 0xB none e s)

/-- COMPARE_EQ (R179, R196). -/
def execCompareEq (e : Fin 32) (s : State) : Out := .next (runHead 0xC (some 0) e s)

/-- COMPARE_LT (R179, R196). -/
def execCompareLt (e : Fin 32) (s : State) : Out := .next (runHead 0xC (some 1) e s)

/-- COMPARE_LE (R179, R196). -/
def execCompareLe (e : Fin 32) (s : State) : Out := .next (runHead 0xC (some 2) e s)

/-- COMPARE_UN (R179, R196). -/
def execCompareUn (e : Fin 32) (s : State) : Out := .next (runHead 0xC (some 3) e s)

/-- ENG_SCALE (R179). -/
def execEngScale (e : Fin 32) (s : State) : Out := .next (runHead 0xD none e s)

/-- REDUCE_SUM (R181). -/
def execReduceSum (e : Fin 32) (s : State) : Out := .next (runHead 0xE (some 0) e s)

/-- REDUCE_MIN (R181, R196). -/
def execReduceMin (e : Fin 32) (s : State) : Out := .next (runHead 0xE (some 1) e s)

/-- REDUCE_MAX (R181, R196). -/
def execReduceMax (e : Fin 32) (s : State) : Out := .next (runHead 0xE (some 2) e s)

/-- ENG_DOT (R181). -/
def execEngDot (e : Fin 32) (s : State) : Out := .next (runHead 0xF none e s)

/-- MRPOST (R184). -/
def execMrpost (pf : Fin 272) (s : State) : Out := .next (mrpostOp pf s)

end Sys2Proof.Machine
end

