-- ==== Sys2Proof/Machine/Mesh.lean ====
section
/-! DEFINITION. The droveway: nodes, routes, malformed packets, errors, output queues and their arbitration, combining
(R241 to R261, R264, R265, R267, R271). -/

namespace Sys2Proof.Machine

/-- Whether a packet is for the bank port of a fold node (R249, R251). -/
def forBank (p : Pkt) : Bool :=
  match p.net with
  | .req => 1 ≤ p.type.toNat && p.type.toNat ≤ 6
  | .data => p.type = 0x11
  | .rsp => false
  | .snp => p.type = 2

/-- Whether the hurdle of the domain a packet is for at its destination lets it in; registers are read and written in every state of the
domain, and notices and invalidations reach every node (R86, R251, R271). -/
def hurdleOpen (n : Nat) (p : Pkt) (s : State) : Bool :=
  if 288 ≤ n then true
  else if p.net == .snp && p.type = 3 then true
  else if p.net == .req && (p.type = 8 || p.type = 9) then true
  else if n < 272 then
    if forBank p then !(s.bankShut n) else (s.fold n).hurdle == .opened
  else if p.net == .snp && p.type = 1 then true
  else (s.engine (engineOfPkt n p)).hurdle == .opened

/-! ### Arbitration -/

/-- The heads of the input buffers behind an output that have a flit to send: one for each input, VC and LEG (R246). -/
def heads : List Queued → List (Nat × BitVec 2 × BitVec 2) → List Queued
  | [], _ => []
  | x :: t, seen =>
    if !x.stays || seen.contains x.buffer then heads t seen
    else
      let l := heads t (x.buffer :: seen)
      if x.sent < x.got then x :: l else l

/-- Whether a best-effort packet that is not on its way yet finds its output channel taken by one that is (R259). -/
def channelTaken (q : List Queued) (x : Queued) : Bool :=
  x.pkt.vc != 0 && x.sent == 0 && q.any fun y => y.pkt.vc == x.pkt.vc && 0 < y.sent && y.stays

/-- The urgency a head competes with: 15 for VC0 from G + 960 (R258). -/
def effUrg (x : Queued) : Nat := if x.pkt.vc = 0 then 15 else x.pkt.urg.toNat

/-- How far an input lies after the one granted last. -/
def turn (last inp : Nat) : Nat := (inp + 7 - last) % 8

/-- Whether head `x` goes before head `y`: urgency, then the wait, then the rotating order (R259). -/
def goesBefore (last : Nat) (x y : Queued) : Bool :=
  if effUrg x ≠ effUrg y then effUrg y < effUrg x
  else if x.since ≠ y.since then x.since < y.since
  else turn last x.inp < turn last y.inp

/-- The packet whose next flit an output carries: a VC0 packet in its reserved cycle, else in a free cycle the best-effort one R259
chooses; SNP serves VC0 first and its inputs in turn (R257 to R259). The rotating order begins after input 0, and from a tick on VC0 waits for
its reserved cycles again (log entry 97). -/
def choose (s : State) (n : Nat) (net : Net) (port : Nat) (half : Bool) : Option Queued :=
  let q := s.queue n net port
  let h := heads q []
  let last := Store.get s.dw.rot 0 (queueKey n net port)
  if net == .snp then
    let v0 := h.filter fun x => x.pkt.vc == 0
    best (fun x y => turn last x.inp < turn last y.inp) (if v0.isEmpty then h else v0)
  else
    let res := match s.slotInput s.dw.tabs n (netCode net) port half with
      | none => none
      | some i => h.find? fun x => x.pkt.vc == 0 && x.inp == i
    match res with
    | some x => some x
    | none =>
      let late := s.guard + 960 ≤ s.frame.cycle
      best (goesBefore last) (h.filter fun x => (x.pkt.vc != 0 || late) && !(channelTaken q x))

/-- Whether two ADD_P packets may combine (R261). -/
def mayCombine (x y : Pkt) : Bool :=
  x.net == .req && x.type == 3 && y.type == 3 && x.dst == y.dst && x.word == y.word && x.fepv == y.fepv &&
    x.fep == y.fep && x.tep == y.tep && x.vc == y.vc && x.leg == y.leg

/-- The earlier packet with the later one's operand added and the higher URG (R261). -/
def combined (x y : Pkt) : Pkt :=
  { x with urg := if x.urg.toNat < y.urg.toNat then y.urg else x.urg
           body := { x.body with payload := [x.body.payload.headD 0 + y.body.payload.headD 0] } }

/-- Combine a packet into the last one of its queue that names its word, when that one has not started and lies in the window: the queue
after it, or none. The list is the queue from its end; the window counts the packets of the same virtual channel and LEG (R261; log
entry 98). -/
def combineInto (p : Pkt) : List Queued → Nat → Option (List Queued)
  | [], _ => none
  | x :: t, behind =>
    if x.pkt.vc ≠ p.vc || x.pkt.leg ≠ p.leg || !x.stays then (combineInto p t behind).map (x :: ·)
    else
      let span := behind + (x.pkt.body.flits - x.sent)
      if x.pkt.dst = p.dst && x.pkt.word = p.word then
        if mayCombine x.pkt p && span ≤ 8 && x.sent = 0 then some ({ x with pkt := combined x.pkt p } :: t) else none
      else if 8 < span then none
      else (combineInto p t span).map (x :: ·)

/-- Put the head of a packet, and as many flits of it as have come, into an output queue, combined when it can be (R261). -/
def enqueue (n inp port got : Nat) (half : Bool) (p : Pkt) (s : State) : State :=
  let q := s.queue n p.net port
  let c := if p.net == .req && p.type = 3 && n < 288 && bit (s.reg .nodeCfg n) 8 then combineInto p q.reverse 0 else none
  match c with
  | some l => (s.setQueue n p.net port (nclk s half) l.reverse).count .combcnt n 31 0 1
  | none => s.setQueue n p.net port (nclk s half) (q ++ [{ pkt := p, inp := inp, since := nclk s half, got := got }])

/-! ### Routers -/

/-- A memory request of anything but the hub's shepherds or its configuration units, at the hub: the secure pasture refuses
it (R237, R244). -/
def secureReject (p : Pkt) : Bool := forBank p && p.net != .snp && p.unit != 5

/-- Whether a wipe of the secure pasture is in progress (R239). -/
def State.wiping (s : State) : Bool :=
  match s.hub.wipe with
  | none => false
  | some w => s.frame.time < w.till

/-- What the words of a row are that does not read back as zero, in each of the four banks (R239). -/
def failedRow (r : Nat) (s : State) : State :=
  (List.range 64).foldl (fun s i =>
    let d := s.draw 64
    { d.2 with mem := memSetWord d.2.mem (wordAddr (272 + i / 16) (16 * r + i % 16)) d.1 }) s

/-- Step 4 of a wipe: EMPTY, and one wipe more; or FAILED after a second read-back that failed, with a pinned record (R239). -/
def endWipe (bad : Option Nat) (s : State) : State :=
  let s := { s with hub := { s.hub with wipe := none } }
  match bad with
  | none => (s.setRf .secpast 0 31 30 0).count .secpast 0 15 8 1
  | some r => cairnWrite 0x82 0 (leBytes 2 r) true true (failedRow r (s.setRf .secpast 0 31 30 3))

/-- A wipe whose time has run out ends (R239; log entry 101). -/
def wipeDue (s : State) : State :=
  match s.hub.wipe with
  | none => s
  | some w => if s.frame.time < w.till then s else endWipe w.bad s

/-- Read a word of the secure pasture: a single-bit error is corrected in the word and in what is read, an uncorrectable one goes to the Cairn
(R227, R228, R237; log entry 121). -/
def secureRead (b w : Nat) (s : State) : Option Dword × State :=
  match s.eccOf b w with
  | .good => (some (memWord s.mem (wordAddr b w)), s)
  | .single => (some (memWord s.mem (wordAddr b w)), s.setEcc b w .good)
  | .double => (none, cairnWrite 0x40 b (leBytes 2 (w % 65536) ++ [0]) false true s)

/-- The words of a read of the secure pasture one by one: none of them when one cannot be read (R228, R237). -/
def secureWords (b w : Nat) : Nat → State → Option (List Dword) × State
  | 0, s => (some [], s)
  | n + 1, s =>
    let x := secureRead b w s
    let y := secureWords b (w + 1) n x.2
    match x.1, y.1 with
    | some v, some l => (some (v :: l), y.2)
    | _, _ => (none, y.2)

/-- Store a word of the secure pasture with a fresh code (R237). -/
def secureStore (b w : Nat) (v : Dword) (s : State) : State :=
  ({ s with mem := memSetWord s.mem (wordAddr b w) v }).setEcc b w .good

/-- A request of one word that writes the secure pasture: WRITE1 or an atomic (R221, R228, R229, R237). -/
def secureWrite (b : Nat) (p : Pkt) (s : State) : State :=
  let w := p.word.toNat
  let x := operandOf p
  if p.type = 2 && p.bmask = 0xFF then ackIf 288 p (secureStore b w x s)
  else
    let returns : Bool := p.type = 4 || p.type = 6
    match secureRead b w s with
    | (none, s) => if returns then sendError 288 p 4 s else ackIf 288 p s
    | (some o, s) =>
      if p.type = 2 then ackIf 288 p (secureStore b w ((o &&& ~~~(maskBytes p.bmask)) ||| (x &&& maskBytes p.bmask)) s)
      else
        let s := secureStore b w (if p.type = 3 || p.type = 4 then o + x else x) s
        if returns then s.emit (.packet (reply s 288 p 3 [o])) else s

/-- Access the secure pasture for a shepherd: which of its four banks, the packet does not say; during a wipe reads return 0, those of
returning atomics too, and writes are discarded (R237, R240, R244; log entry 99). -/
def secureAccess (p : Pkt) (s : State) : State :=
  let x := (wipeDue s).draw 2
  let b := 272 + x.1.toNat
  let t := x.2
  let n := p.len.toNat + 1
  let read := p.net == .req && p.type = 1
  if t.wiping then
    if read then answerRead 288 p (List.replicate n 0) t
    else if p.net == .req && (p.type = 4 || p.type = 6) then t.emit (.packet (reply t 288 p 3 [0]))
    else ackIf 288 p t
  else if read then
    match secureWords b p.word.toNat n t with
    | (some l, t) => answerRead 288 p l t
    | (none, t) => sendError 288 p 4 t
  else if p.net == .data then
    ackIf 288 p ((List.range n).foldl (fun s i => secureStore b (p.word.toNat + i) (p.body.payload.getD i 0) s) t)
  else secureWrite b p t

/-- A packet at its destination: the hub's boundary, a hurdle that is not open, or the queue of the port it is for. -/
def deliver (n inp got : Nat) (half : Bool) (p : Pkt) (s : State) : State :=
  if n = 288 then
    if secureReject p then
      let st := 272 + 4 * (placeOf p.src.toNat).die
      sendError st p 1 (isolatedSent st (s.count .secrej 0 31 0 1))
    else if forBank p && p.net != .snp then secureAccess p s
    else s
  else if hurdleOpen n p s then enqueue n inp (if forBank p && n < 272 then 5 else 4) got half p s
  else shutOut n p s

/-- A router absorbs a packet of the old table epoch and answers it (R265). -/
def drainPacket (n : Nat) (p : Pkt) (s : State) : State :=
  let s := forgetFlight p (s.count .nodeErrcnt0 n 15 0 1)
  if isRequest p || p.net == .data then sendError n p 2 s else s

/-- The head of a packet at a router: the old table epoch is absorbed once the drain window has closed; then its port, a lost bridge, or its
destination (R246, R264, R265, R274). -/
def forward (n inp got : Nat) (half : Bool) (p : Pkt) (s : State) : State :=
  if n < 288 && p.net != .snp && p.tep != s.dw.tep && !s.dw.drain then
    drainPacket n p s
  else
    match outPort (s.tabsOf p) n p.dst.toNat with
    | none => deliver n inp got half p s
    | some port =>
      if port = 5 && bit s.dw.lost (bridgeOf (placeOf n).die ((n - 272) % 4)) then shutOut n p s
      else enqueue n inp port got half p s

/-- The probe of a router sees the head of a packet that enters it (R276). -/
def seen (n inp : Nat) (p : Pkt) (s : State) : State := if n < 288 then probePacket n inp p s else s

/-- A packet as its requester injects it: the frame epoch with which a unit that acts for a frame has issued it, none of the host's and
the hub's; the current TEP; NOTAG on what waits for no response; and the virtual channel and urgency of R256, R260 and R517, where host
DMA brings its own urgency and read data keeps the channel of its request (R40, R253, R256, R264; log entry 100). -/
def injected (s : State) (n : Nat) (p : Pkt) : Pkt :=
  let ep := s.epochsAt n
  let best := BitVec.ofNat 4 (s.rf .nodeCfg n 7 4)
  match p.net with
  | .snp => { p with vc := if p.type = 1 then 1 else 0 }
  | .rsp => { p with tep := ep.2, vc := if p.vc = 0 && p.type ≠ 6 then 0 else 1 }
  | _ =>
    if p.net == .data && p.type = 0x12 then { p with tep := ep.2 }
    else
      let forFrame : Bool := p.unit.toNat ≤ 4
      let p : Pkt := { p with tep := ep.2, fepv := forFrame, fep := forFrame && p.fep, tag := if tagged p then p.tag else noTag }
      if p.net == .req && p.type == 0xA then { p with vc := 3 }
      else if p.unit.toNat ≤ 3 then
        if s.slotWindow then { p with vc := 0, urg := 0 } else { p with vc := 1, urg := best }
      else if p.unit == 4 then { p with vc := 1, urg := best }
      else if p.unit == 6 then { p with vc := 2 }
      else { p with vc := 3, urg := 8 }

/-- Whether a tagged request may hold its tag: one of its owner's range, free, or held for it by its unit (R253). -/
def tagFree (s : State) (p : Pkt) : Bool :=
  let r := ownTags s p
  r.1 ≤ p.tag.toNat && p.tag.toNat < r.1 + r.2 &&
    match Store.get s.dw.tags none p.tag.toNat with
    | none => true
    | some h => h.fresh

/-- The router that a node's packet meets first: the hub's packets enter at ST0 of their destination's die (R246, R252), an
undefined destination counting by its index (DESIGN CHOICE, log entry 132). -/
def firstRouter (n : Nat) (p : Pkt) : Nat := if n < 288 then n else 272 + 4 * (placeOf p.dst.toNat).die

/-- The packet of a mover with the rows it has read by now, and how many flits these make; any other packet comes whole (R144). -/
def streamed (s : State) (n : Nat) (p : Pkt) : Pkt × Nat :=
  match (s.fold n).moves with
  | [] => (p, p.body.flits)
  | m :: _ =>
    if n < 272 && m.out && m.tag == some p.tag && ofMover n p.tag p then ({ p with body := { p.body with payload := m.data } }, m.flits)
    else (p, p.body.flits)

/-- A packet injected at a node: the probe sees it; malformed it is dropped and reported; a request without a tag it may hold waits outside
(R252, R253, R276). -/
def inject (n inp : Nat) (p : Pkt) (s : State) : State :=
  if malformed p then
    let m := firstRouter n p
    let s := (seen m inp p s).count .nodeErrcnt0 m 31 16 1
    if p.net == .req || p.net == .data then sendError m p 3 s else s
  else
    let p := injected s n p
    if tagged p then
      if !(tagFree s p) then s
      else
        let (p, got) := streamed s n p
        forward n inp got false p
          (seen n inp p { s with dw := { s.dw with tags := Store.set s.dw.tags none p.tag.toNat (some { pkt := p }) } })
    else forward n inp p.body.flits false p (seen n inp p s)

/-- Whether two flits belong to one packet: its urgency changes on the way, and its operand or the rows it has so far (R144, R260, R261). -/
def samePacket (p q : Pkt) : Bool :=
  { p with urg := 0, body := { p.body with payload := [] } } == { q with urg := 0, body := { q.body with payload := [] } }

/-- A flit that is not the head follows its packet into the queue that took the head; of a packet that was combined, absorbed or answered it
goes nowhere (R259, R261, R265). -/
def follow (n inp : Nat) (half : Bool) (p : Pkt) (s : State) : State :=
  match (List.range 7).find? fun port =>
      (s.queue n p.net port).any fun x => x.inp == inp && samePacket x.pkt p && x.got < p.body.flits with
  | none => s
  | some port =>
    let q := s.queue n p.net port
    let i := q.findIdx fun x => x.inp == inp && samePacket x.pkt p && x.got < p.body.flits
    s.setQueue n p.net port (nclk s half) (q.modify i fun x =>
      { x with got := x.got + 1, pkt := if p.net == .data then { x.pkt with body := p.body } else x.pkt })

/-- The next flit of a packet leaves by an output, which carries no other in this cycle; a VC0 flit has waited for it (R245, R258, R259). -/
def sendFlit (m port : Nat) (net : Net) (half stays : Bool) (x : Queued) (s : State) : State :=
  let t := nclk s half
  let q := s.queue m net port
  let y := { x with sent := x.sent + 1, headAt := none }
  let s := match x.headAt with
    | none => s
    | some h => if x.pkt.vc == 0 && !(net == Net.snp) then s.count .slotwait m 31 0 (t - h) else s
  let s := s.setQueue m net port (t + 1) (if y.stays || stays then q.replace x y else q.erase x)
  let k := queueKey m net port
  { s with dw := { s.dw with rot := Store.set s.dw.rot 0 k x.inp, used := Store.set s.dw.used 0 k (t + 1) } }

/-- What the link that ends at an input of a node starts from: an output of another node; inputs 4 and, at a fold node, 5 name the node's own
output to the unit there. -/
def linkStart (n inp : Nat) : Option (Nat × Nat × Bool) :=
  if n < 288 && (inp = 4 || (inp = 5 && n < 272)) then some (n, inp, true)
  else (feeder n inp).map fun x => (x.1, x.2, false)

/-- One flit crosses the link that ends at an input of a node; a bridge adds one to LEG (R245, R246, R257 to R259). -/
def crossLink (n inp : Nat) (net : Net) (half : Bool) (s : State) : State :=
  match linkStart n inp with
  | none => s
  | some (m, port, own) =>
    if nclk s half < Store.get s.dw.used 0 (queueKey m net port) then s
    else
      match choose s m net port half with
      | none => s
      | some x =>
        let s := sendFlit m port net half own x s
        if own then s
        else
          let bridge : Bool := port = 5 && m < 288
          let s := if bridge then bridgeRetries m 1 s else s
          let p := if bridge then { x.pkt with leg := x.pkt.leg + 1 } else x.pkt
          if x.sent = 0 then forward n inp 1 half p (seen n inp p s) else follow n inp half p s

/-- ROUTE_PACKET (R246). -/
def routePacket (n : Nat) (src : RouteFrom) (s : State) : State :=
  match src with
  | .inject inp p => inject n inp p s
  | .link inp net half => crossLink n inp net half s

/-- Whether a head has waited long enough at its router for one urgency more (R260). -/
def urgDue (t : Nat) (x : Queued) : Bool := x.sent == 0 && x.since + 256 * (x.raised + 1) ≤ t

/-- URG_INCREMENT: every best-effort head of a channel at an output that has waited 256 NCLK cycles more gains one urgency, up to 15
(R260). -/
def urgIncrement (n : Nat) (net : Net) (port : Nat) (vc : BitVec 2) (s : State) : State :=
  if vc = 0 || net == .snp then s
  else
    let q := s.queue n net port
    let h := (heads q []).filter fun x => x.pkt.vc == vc && urgDue (nclk s false) x
    s.setQueue n net port (nclk s false) (q.map fun x =>
      if h.contains x then
        { x with raised := x.raised + 1, pkt := { x.pkt with urg := BitVec.ofNat 4 (min 15 (x.pkt.urg.toNat + 1)) } }
      else x)

/-- The cycles that a VC0 flit has waited at the head of its buffer up to an NCLK cycle, of those an output has (R258). -/
def Queued.waited (t : Nat) (x : Queued) : Nat :=
  match x.headAt with
  | none => 0
  | some h => if x.pkt.vc = 0 then t - h else 0

/-- Packets are taken out of an output queue of a node: what their flits have waited stays counted (R258). -/
def takeOut (n : Nat) (net : Net) (port : Nat) (gone : Queued → Bool) (s : State) : State :=
  let q := s.queue n net port
  let t := nclk s false
  let s := if net == .snp then s
    else s.count .slotwait n 31 0 (((heads q []).filter gone).foldl (fun a x => a + x.waited t) 0)
  s.setQueue n net port t (q.filter fun x => !(gone x))

/-- The flits that an output of a node has kept waiting in VC0 up to now (R258). -/
def waitedNow (s : State) (n : Nat) : Nat :=
  (s.dw.queues.filter fun x => x.1 / 64 == n && x.1 / 8 % 8 != netCode .snp).foldl (fun a x =>
    (heads x.2 []).foldl (fun a y => a + y.waited (nclk s false)) a) 0

/-- The stile at which a request crosses a bridge, the one nearer its requester, and how many bridges it has crossed before (R246). -/
def crossingOf (s : State) (b : Nat) (p : Pkt) : Option (Nat × Nat) :=
  let d := (placeOf p.src.toNat).die
  let t := (placeOf p.dst.toNat).die
  if d = t || 288 ≤ p.dst.toNat || 288 ≤ p.src.toNat then none
  else
    let tb := s.tabsOf p
    let b1 := routeBridge tb d p.dst.toNat
    let d2 := farDie d b1
    if b1 = b then some (stileOf d b, 0)
    else if d2 ≠ t && routeBridge tb d2 p.dst.toNat = b then some (stileOf d2 b, 1)
    else none

/-- Whether a request is somewhere on its way with its head still short of its crossing number `c` (R253, R274). -/
def short (s : State) (c : Nat) (p : Pkt) : Bool :=
  let l := (s.dw.queues.flatMap (·.2)).filter fun x => x.pkt.net == p.net && x.pkt.tag == p.tag && x.pkt.src == p.src && tagged x.pkt
  !l.isEmpty && l.all fun x => x.pkt.leg.toNat ≤ c

/-- Whether the answer to a request is on its way with its head on the requester's die. -/
def cameBack (s : State) (p : Pkt) : Bool :=
  s.dw.queues.any fun q => (placeOf (q.1 / 64)).die == (placeOf p.src.toNat).die &&
    q.2.any fun x => x.pkt.dst == p.src && x.pkt.tag == p.tag && (x.pkt.net == .rsp || (x.pkt.net == .data && x.pkt.type = 0x12))

/-- What has crossed a bridge of a packet that is lost in the middle goes no further: its other flits do not come. -/
def dropHeads (p : Pkt) (s : State) : State :=
  { s with dw := { s.dw with queues := s.dw.queues.map fun q => (q.1, q.2.filter fun x =>
      !(samePacket { x.pkt with leg := 0 } { p with leg := 0 } && p.leg.toNat < x.pkt.leg.toNat && x.got < x.pkt.body.flits)) } }

/-- A packet at the end of a bridge that is lost: it is answered or absorbed, but for a tagged request whose head has crossed, which
`cutTag` answers (R253, R274). -/
def lostAt (n : Nat) (x : Queued) (s : State) : State :=
  if x.sent = 0 then shutOut n x.pkt s
  else if tagged x.pkt then dropHeads x.pkt s
  else shutOut n x.pkt (dropHeads x.pkt s)

/-- What waits at a lost bridge's end on one network is answered or absorbed there, and the waiting of its flits stays counted (R258,
R274). -/
def emptyBridge (n : Nat) (net : Net) (s : State) : State :=
  (s.queue n net 5).foldl (fun s x => lostAt n x s) (takeOut n net 5 (fun _ => true) s)

/-- A request that has crossed a lost bridge and whose answer has not come back receives ISOLATED from the end nearer its requester, which
holds the tag until it arrives; one that is still short of the bridge meets it there (R253, R274). -/
def cutTag (b : Nat) (h : HeldTag) (s : State) : State :=
  match crossingOf s b h.pkt with
  | none => s
  | some (n, c) => if h.fresh || short s c h.pkt || cameBack s h.pkt then s else refuse n h.pkt s

/-- BRIDGE_LOST: both ends seal; the packets that wait for the bridge and the tags out across it are answered, each request once, and the
next tick switches the tables (R274, R275, R402). -/
def bridgeLost (b : Nat) (trained : Bool) (s : State) : State :=
  if bit s.dw.lost b then s
  else inOneCycle (fun s =>
    let s := { s with dw := { s.dw with lost := setBit s.dw.lost b true, order := b :: s.dw.order } }
    let s := cairnWrite 0x60 b [BitVec.ofNat 8 trained.toNat] false true s
    let ends := ((List.range 4).filter fun d => (stileBridges.getD d []).contains b).map fun d => stileOf d b
    let s := if trained then s else ends.foldl (fun s n => s.count .bridgecnt n 31 16 8) s
    let s := s.dw.tags.foldl (fun s x => match x.2 with
      | none => s
      | some h => cutTag b h s) s
    ends.foldl (fun s n => [Net.req, .rsp, .data, .snp].foldl (fun s net => emptyBridge n net s) s) s) s

/-- The requests at a bank that its hurdle seals: each is answered with ISOLATED; a bank that closes for a lower state takes it
(R235, R270). -/
def sealBank (b : Nat) (s : State) : State :=
  let w := (s.bank b).waiting
  w.foldl (fun s x => shutOut b x.pkt s) (s.modBank b fun k =>
    { k with hurdle := .closed, waiting := [], busy := false, power := if k.power = .on && k.recorded ≠ .on then k.recorded else k.power })

end Sys2Proof.Machine
end

