-- ==== Sys2Proof/Machine/Image.lean ====
section
/-! DEFINITION. Configuration images: header, directory, sections, and the checks that need no module state (R278 to R288,
R296, R298, R312 to R318). -/

namespace Sys2Proof.Machine

/-- CHECK_FAIL with a detail (R296). -/
def chk (detail arg sec : Nat) : ImgErr := ⟨6, detail, arg, sec⟩

/-- The directory index of a failure that lies in no single section (CFG.ERR). -/
def noSec : Nat := 0x3FF

/-- The first failure of a list of checks. -/
def firstFail (l : List (Option ImgErr)) : Option ImgErr := l.findSome? id

/-- A failure when a condition breaks. -/
def failIf (b : Bool) (e : ImgErr) : Option ImgErr := if b then some e else none

/-! ### Header and directory -/

/-- A directory entry (R280). -/
structure DirEnt where
  type : Nat
  sflags : Nat
  offset : Nat
  slen : Nat
  crc : Nat

/-- The number of directory entries an image's header gives. -/
def imgSections (l : List Byte) : Nat := leAt l 12 2

/-- LENGTH of a header. -/
def imgLength (l : List Byte) : Nat := leAt l 8 4

/-- Whether a header names a partial image. -/
def imgPartial (l : List Byte) : Bool := leAt l 6 1 = 2

/-- Whether a header says the image is encrypted. -/
def imgEnc (l : List Byte) : Bool := leAt l 7 1 % 2 = 1

/-- KEYSLOT of a header. -/
def imgKeySlot (l : List Byte) : Nat := leAt l 14 1

/-- BASE of a header. -/
def imgBase (l : List Byte) : List Byte := bytesAt l 32 48

/-- Entry `i` of the directory. -/
def dirEnt (l : List Byte) (i : Nat) : DirEnt :=
  let o := 128 + 16 * i
  ⟨leAt l o 2, leAt l (o + 2) 2, leAt l (o + 4) 4, leAt l (o + 8) 4, leAt l (o + 12) 4⟩

/-- The directory. -/
def imgDir (l : List Byte) : List DirEnt := (List.range (imgSections l)).map (dirEnt l)

/-- The stored body of an entry. -/
def storedBody (l : List Byte) (d : DirEnt) : List Byte := bytesAt l d.offset d.slen

/-- Whether a byte range is 0. -/
def zeroAt (l : List Byte) (off n : Nat) : Bool := (bytesAt l off n).all (· == 0)

/-- The first byte offset at which the header breaks its rules (R279, R296 FORMAT). -/
def headerFault (l : List Byte) (length : Nat) : Option Nat :=
  let len := imgLength l
  if leAt l 0 4 ≠ 0x4C425A49 then some 0
  else if leAt l 4 2 ≠ 1 then some 4
  else if leAt l 6 1 ≠ 1 && leAt l 6 1 ≠ 2 then some 6
  else if 2 ≤ leAt l 7 1 then some 7
  else if len ≠ length || len % 16 ≠ 0 || len < 256 || 0xC00000 < len then some 8
  else if imgSections l < 2 || 512 < imgSections l || len < 128 + 16 * imgSections l then some 12
  else if leAt l 15 1 ≠ 0 then some 15
  else if !(imgPartial l) && !(zeroAt l 32 48) then some 32
  else if !(imgEnc l) && !(zeroAt l 80 12) then some 80
  else if !(zeroAt l 92 36) then some 92
  else none

/-- The bits of SFLAGS a section type may set (R280). -/
def sflagsMax (type : Nat) : Nat := if type = 3 then 255 else if type = 0xC || type = 7 then 15 else 0

/-- The first entry at which the directory is out of order, overlaps, holds a reserved bit or misplaces SIGNATURE; `lo` is
where the next section may start (R278, R280, R287). -/
def dirFault (len : Nat) : List DirEnt → Nat → Nat → Option Nat
  | [], _, _ => none
  | d :: t, i, lo =>
    let bad := d.offset % 16 ≠ 0 || d.offset < lo || len < d.offset + d.slen || sflagsMax d.type < d.sflags ||
      ((d.type = 0xFF) != t.isEmpty) || (d.type = 0xFF && (d.slen ≠ 96 || d.offset + d.slen ≠ len))
    if bad then some (128 + 16 * i) else dirFault len t (i + 1) (d.offset + d.slen)

/-- FORMAT (R296). -/
def formatErr (l : List Byte) (length : Nat) : Option ImgErr :=
  match headerFault l length with
  | some a => some (chk 1 a noSec)
  | none => (dirFault (imgLength l) (imgDir l) 0 (128 + 16 * imgSections l)).map fun a => chk 1 a noSec

/-- TARGET (R296). -/
def targetErr (l : List Byte) : Option ImgErr :=
  failIf (leAt l 16 2 ≠ 0x256 || leAt l 18 1 ≠ 0xB1 || 3 < leAt l 19 1) (chk 2 0 noSec)

/-- The CRC of one section. -/
def crcErr (l : List Byte) (i : Nat) : Option ImgErr :=
  let d := dirEnt l i
  failIf (crc32c (storedBody l d) ≠ d.crc) (chk 3 i i)

/-- SECTION_CRC over every section (R286, R296). -/
def crcErrs (l : List Byte) : Option ImgErr := (List.range (imgSections l)).findSome? (crcErr l)

/-- Whether a type may appear in an image of the given kind (R281). -/
def typePermitted (part : Bool) (type : Nat) : Bool :=
  (1 ≤ type && type ≤ 0x10 && !(part && type = 2)) || type = 0xFF

/-- The types an image must hold (R281). -/
def requiredTypes (part : Bool) : List Nat := if part then [1] else [1, 2, 5, 6, 8, 0xE, 0xF]

/-- SECTION_SET (R281, R296): the first entry of a type not permitted or that appeared before, then a required one missing. A
PROGRAM or an ALT_TABLES repeats only under another SFLAGS. -/
def setErr (l : List Byte) : Option ImgErr :=
  let part := imgPartial l
  let d := imgDir l
  let bad := (List.range d.length).find? fun i =>
    let e := dirEnt l i
    !(typePermitted part e.type) || (e.type = 7 && (e.sflags = 0 || 8 < e.sflags)) ||
      (d.take i).any fun x => x.type == e.type && x.sflags == e.sflags
  match bad with
  | some i => some (chk 4 i i)
  | none =>
    match (requiredTypes part).find? fun t => !(d.any (·.type == t)) with
    | some t => some (chk 4 (0x80000000 + t) noSec)
    | none => none

/-! ### Bodies -/

/-- The nonce of a section: the last two bytes of NONCE XORed with the directory index (R288). -/
def sectionNonce (l : List Byte) (i : Nat) : List Byte :=
  bytesAt l 80 10 ++ leBytes 2 (leAt l 90 2 ^^^ i)

/-- The plain body of an entry: decrypted when the image is encrypted (R288). -/
def plainBody (l : List Byte) (key : List Byte) (i : Nat) : Option (List Byte) :=
  let d := dirEnt l i
  let b := storedBody l d
  if !(imgEnc l) || d.type = 0xFF then some b
  else Config.gcmOpen key (sectionNonce l i) (bytesAt l 0 128 ++ leBytes 2 d.type ++ leBytes 2 d.sflags)
    (b.take (d.slen - 16)) (b.drop (d.slen - 16))

/-- A section as the loader reads it: directory index, type, SFLAGS, image offset and plain body. -/
structure Sec where
  idx : Nat
  type : Nat
  sflags : Nat
  offset : Nat
  body : List Byte

/-- Every section decrypted, or the index of the first whose tag fails. -/
def plainSecs (l : List Byte) (key : List Byte) : List Nat → Sum Nat (List Sec)
  | [] => .inr []
  | i :: t =>
    match plainBody l key i with
    | none => .inl i
    | some b =>
      match plainSecs l key t with
      | .inl j => .inl j
      | .inr r => .inr (⟨i, (dirEnt l i).type, (dirEnt l i).sflags, (dirEnt l i).offset, b⟩ :: r)

/-- The first section of a type. -/
def secOf (ss : List Sec) (type : Nat) : Option Sec := ss.find? (·.type == type)

/-- The directory index of the first section of a type. -/
def idxOf (ss : List Sec) (type : Nat) : Nat :=
  match secOf ss type with
  | none => noSec
  | some x => x.idx

/-- Cut a body into records of `n` bytes with their offsets. -/
def records (n : Nat) : Nat → Nat → List Byte → List (Nat × List Byte)
  | 0, _, _ => []
  | k + 1, off, l => if l.length < n then [] else (off, l.take n) :: records n k (off + n) (l.drop n)

/-- The records of a section. -/
def recordsOf (n : Nat) (x : Sec) : List (Nat × List Byte) := records n (x.body.length / n) x.offset x.body

/-! #### PENS -/

/-- An edge mode code (R69); 0b11 is none. -/
def edgeModeOf : Nat → Option EdgeMode
  | 0 => some .fill
  | 1 => some .wrap
  | 2 => some .skew
  | _ => none

/-- A PENS record (R282). -/
def penOf (b : List Byte) : PenCfg :=
  let w := BitVec.ofNat 64 (leAt b 0 8)
  let v := BitVec.ofNat 64 (leAt b 8 8)
  ⟨fld w 7 0, fld w 16 8, fld w 25 17, (edgeModeOf (fld w 27 26)).getD .fill, (edgeModeOf (fld w 29 28)).getD .fill,
    bit w 30, fld w 41 32, fld w 52 42, fld w 62 53, BitVec.ofNat 14 (fld v 13 0), fld v 23 14⟩

/-- Whether a PENS record breaks R62 or R282. -/
def penBroken (b : List Byte) : Bool :=
  let w := BitVec.ofNat 64 (leAt b 0 8)
  let p := penOf b
  p.count = 0 || 256 < p.first + p.count || p.width = 0 || p.count % p.width ≠ 0 || fld w 27 26 = 3 || fld w 29 28 = 3 ||
    512 < p.carried || p.carried < p.hinted || 2048 < p.cbase + p.carried || 1024 < p.ckslot + 2 * p.carried

/-- Whether a PENS record holds a reserved bit. -/
def penReserved (b : List Byte) : Bool :=
  let w := BitVec.ofNat 64 (leAt b 0 8)
  bit w 31 || bit w 63 || leAt b 8 8 / 2 ^ 24 ≠ 0

/-- The logical folds of a list of pens. -/
def lfsOf (ps : List PenCfg) : List Nat := ps.flatMap fun p => (List.range p.count).map (p.first + ·)

/-- PEN (R62, R63, R282, R296). -/
def pensErr (full : Bool) (x : Sec) : Option ImgErr :=
  let rs := recordsOf 16 x
  let ps := rs.map fun r => penOf r.2
  let lfs := lfsOf ps
  firstFail (rs.map (fun r => firstFail [failIf (penReserved r.2) (chk 1 r.1 x.idx),
      failIf (penBroken r.2) (chk 5 (penOf r.2).first x.idx)]) ++
    [failIf (x.body.length % 16 ≠ 0 || x.body.isEmpty) (chk 5 0 x.idx),
     (lfs.find? fun lf => lfs.count lf ≠ 1).map fun lf => chk 5 lf x.idx,
     if full then ((List.range 256).find? fun lf => !(lfs.contains lf)).map fun lf => chk 5 lf x.idx else none])

/-! #### PROGRAM -/

/-- The I-space and D-space images of a PROGRAM body (R283). -/
def programOf (b : List Byte) : List (BitVec 14) × List Half :=
  let i := leAt b 0 2
  let d := leAt b 2 2
  ((List.range i).map fun k => BitVec.ofNat 14 (leAt b (4 + 2 * k) 2),
   (List.range d).map fun k => BitVec.ofNat 16 (leAt b (4 + 2 * i + 2 * k) 2))

/-- Whether a PROGRAM body breaks R283. -/
def programBroken (b : List Byte) : Bool :=
  let i := leAt b 0 2
  let d := leAt b 2 2
  i = 0 || 16384 < i || 4096 < d || b.length ≠ 4 + 2 * i + 2 * d ||
    (List.range i).any fun k => 16384 ≤ leAt b (4 + 2 * k) 2

/-- PROGRAM (R283, R296): each body, and each pen has its own. -/
def programsErr (pens : Nat) (ss : List Sec) : Option ImgErr :=
  let ps := ss.filter (·.type == 3)
  firstFail (ps.map (fun x => firstFail [failIf (pens ≤ x.sflags) (chk 4 x.idx x.idx),
      failIf (programBroken x.body) (chk 6 x.sflags x.idx)]) ++
    [((List.range pens).find? fun k => !(ps.any (·.sflags == k))).map fun k => chk 6 k noSec])

/-! #### RELOCATION -/

/-- The relocation table (R317). -/
def relocOf (b : List Byte) : List (Nat × Option Nat) :=
  (List.range 256).map fun k =>
    let w := leAt b (4 * k) 4
    (w % 512, if w / 512 % 512 = 0x1FF then none else some (w / 512 % 512))

/-- RELOCATION (R72, R73, R317, R296): of two logical folds on one physical fold the second is named (DEDUCED, log entry 47). -/
def relocErr (x : Sec) : Option ImgErr :=
  let t := relocOf x.body
  let pfs := t.map (·.1)
  firstFail [failIf (x.body.length ≠ 1024) (chk 7 0 x.idx),
    ((List.range 256).find? fun k => 2 ^ 18 ≤ leAt x.body (4 * k) 4).map fun k => chk 1 (x.offset + 4 * k) x.idx,
    ((List.range 256).find? fun k =>
      let e := t.getD k (0, none)
      272 ≤ e.1 || (pfs.take k).contains e.1 || (match e.2 with
        | none => false
        | some a => 272 ≤ a || dieOf a ≠ dieOf e.1 || pfs.contains a)).map fun k => chk 7 k x.idx]

/-! #### SCHEDULE -/

/-- The stage records of a SCHEDULE body from an offset (R312), with the bytes left over. -/
def stagesOf (b : List Byte) : Nat → Nat → List Stage × Nat
  | 0, off => ([], off)
  | n + 1, off =>
    let k := leAt b (off + 12) 2
    let st : Stage := ⟨leAt b off 4, leAt b (off + 4) 4, leAt b (off + 8) 2, leAt b (off + 10) 2,
      (List.range k).map fun i =>
        let w := leAt b (off + 16 + 4 * i) 4
        (w % 256, BitVec.ofNat 14 (w / 256))⟩
    let r := stagesOf b n (off + 16 + 4 * k)
    (st :: r.1, r.2)

/-- Where a stage record or a participant holds a reserved bit. -/
def stageReserved (b : List Byte) : Nat → Nat → Option Nat
  | 0, _ => none
  | n + 1, off =>
    let k := leAt b (off + 12) 2
    if leAt b (off + 14) 2 ≠ 0 then some (off + 14)
    else
      match (List.range k).find? fun i => 2 ^ 22 ≤ leAt b (off + 16 + 4 * i) 4 with
      | some i => some (off + 16 + 4 * i)
      | none => stageReserved b n (off + 16 + 4 * k)

/-- The period and the stages of a SCHEDULE body. -/
def scheduleOf (b : List Byte) : Nat × List Stage := (leAt b 0 4, (stagesOf b (leAt b 4 1) 8).1)

/-- The first stage that breaks R28 or R312; `lo` is the deadline before it. -/
def stageFault (period : Nat) : List Stage → Nat → Nat → Option Nat
  | [], _, _ => none
  | x :: t, k, lo =>
    if x.start < lo || x.deadline < x.start || period < x.deadline + 1024 || x.slotLen = 0 || 1024 < x.slotLen ||
        x.resLen = 0 || 1024 < x.resLen then some k
    else stageFault period t (k + 1) x.deadline

/-- The ILEN of a pen of an image. -/
def ilenOf (pens : List PenCfg) (progs : List (Nat × List (BitVec 14) × List Half)) (first : Nat) : Nat :=
  match pens.findIdx? (·.first == first) with
  | none => 0
  | some k =>
    match progs.find? (·.1 == k) with
    | none => 0
    | some x => x.2.1.length

/-- SCHEDULE (R28, R312, R296). A partial image may not name a pen that is not replacing, which OWNER finds (R307). -/
def scheduleErr (img : Image) (x : Sec) : Option ImgErr :=
  let n := leAt x.body 4 1
  let s := scheduleOf x.body
  firstFail [failIf (n = 0 || 16 < n || s.1 < 16000 || 2 ^ 30 < s.1 || (stagesOf x.body n 8).2 ≠ x.body.length)
      (chk 8 0 x.idx),
    failIf (leAt x.body 5 3 ≠ 0) (chk 1 (x.offset + 5) x.idx),
    (stageReserved x.body n 8).map fun o => chk 1 (x.offset + o) x.idx,
    (stageFault s.1 s.2 0 0).map fun k => chk 8 k x.idx,
    (s.2.findIdx? fun st => st.parts.any fun p =>
      (img.full && !(img.pens.any (·.first == p.1))) ||
        (img.pens.any (·.first == p.1) && ilenOf img.pens img.programs p.1 ≤ p.2.toNat)).map fun k => chk 8 k x.idx]

/-- The start of a pen's first stage. -/
def firstStart (st : List Stage) (first : Nat) : Option Nat :=
  (st.find? fun x => x.parts.any (·.1 == first)).map (·.start)

/-- RESTORE and FLUSH (R45, R47, R296). -/
def carriedErr (st : List Stage) (img : Image) (ss : List Sec) : Option ImgErr :=
  firstFail [(img.pens.find? fun p => match firstStart st p.first with
      | none => false
      | some a => a < 64 * p.carried + 16).map fun p => chk 9 p.first (idxOf ss 5),
    (img.pens.find? fun p => 12 < p.carried - p.hinted).map fun p => chk 0xA p.first (idxOf ss 1)]

/-! #### Tables -/

/-- Whether a router has an output or input port (R242, PROBECTL.PORT). -/
def portPresent (n port : Nat) : Bool :=
  port = 4 || (port = 5 && n < 272) || (feeder n port).isSome

/-- The runs of a table block. -/
def runsOf (b : List Byte) (off n : Nat) : List TabRun :=
  (List.range n).map fun i =>
    let w := BitVec.ofNat 32 (leAt b (off + 4 * i) 4)
    ⟨fld w 31 21 + 1, BitVec.ofNat 9 (fld w 20 12), BitVec.ofNat 12 (fld w 11 0)⟩

/-- Table blocks from an offset on, each with its offset; the fuel is the number of bytes (R314). -/
def blocksOf (b : List Byte) : Nat → Nat → List (Nat × TabBlock)
  | 0, _ => []
  | fuel + 1, off =>
    if b.length < off + 4 then []
    else
      let w := BitVec.ofNat 32 (leAt b off 4)
      let n := fld w 31 18
      (off, ⟨fld w 8 0, fld w 10 9, fld w 14 11, fld w 17 15, runsOf b (off + 4) n⟩) :: blocksOf b fuel (off + 4 + 4 * n)

/-- The length of a run list. -/
def runSum (l : List TabRun) : Nat := l.foldl (fun a r => a + r.len) 0

/-- Whether a slot-table block breaks R257 or R314 under a schedule. -/
def slotBroken (st : List Stage) (x : TabBlock) : Bool :=
  288 ≤ x.unit || x.net = 3 || !(portPresent x.unit x.port) ||
  (match st[x.stage]? with
   | none => true
   | some k => runSum x.runs ≠ k.slotLen) ||
  x.runs.any fun r => (r.owner.toNat < 256 && r.owner ≠ 0) || 8 ≤ r.entry.toNat ||
    (r.entry ≠ 7 && !(portPresent x.unit r.entry.toNat))

/-- Whether a reservation block breaks R315. -/
def resvBroken (st : List Stage) (x : TabBlock) : Bool :=
  272 ≤ x.unit || x.net ≠ 0 || x.port ≠ 0 ||
  (match st[x.stage]? with
   | none => true
   | some k => runSum x.runs ≠ k.resLen) ||
  x.runs.any fun r => (r.owner.toNat < 256 && r.owner ≠ 0) || 4 < fld r.entry 11 9

/-- TABLES over the blocks of a section. -/
def tableErr (bad : TabBlock → Bool) (x : Sec) (base : Nat) : Option ImgErr :=
  let l := blocksOf x.body x.body.length base
  let stop := match l.getLast? with
    | none => base
    | some y => y.1 + 4 + 4 * y.2.runs.length
  firstFail [(l.find? fun y => bad y.2).map fun y => chk 0xB (x.offset + y.1) x.idx,
    failIf (stop ≠ x.body.length) (chk 0xB (x.offset + stop) x.idx)]

/-- The four route records (R313). -/
def routesOf (b : List Byte) : List (BitVec 288) := (List.range 4).map fun d => BitVec.ofNat 288 (leAt b (36 * d) 36)

/-- A slot-table section (R313, R314, R316). -/
def tabSetOf (num : Nat) (b : List Byte) : TabSet := ⟨num, routesOf b, (blocksOf b b.length 144).map (·.2)⟩

/-- Entries of a block in a row, reserved or not. -/
def resvEntries (x : TabBlock) : List Bool := x.runs.flatMap fun r => List.replicate r.len (fld r.entry 11 9 ≠ 0)

/-- The longest row of reserved cycles. -/
def longestRun : List Bool → Nat → Nat → Nat
  | [], cur, best => max cur best
  | true :: t, cur, best => longestRun t (cur + 1) best
  | false :: t, cur, best => longestRun t 0 (max cur best)

/-- Whether a bank's table leaves a window of 16 cycles without an unreserved one (R218). -/
def resvFull (x : TabBlock) : Bool :=
  let l := resvEntries x
  (!l.isEmpty && l.all id) || 16 ≤ longestRun (l ++ l) 0 0

/-- Whether a block reserves any cycle. -/
def resvUsed (x : TabBlock) : Bool := x.runs.any fun r => fld r.entry 11 9 ≠ 0

/-! #### SUBST -/

/-- The table blocks of a SUBST block: each after a word naming its set (R318). -/
def substBlocks (b : List Byte) : Nat → Nat → List (Nat × TabBlock) × Nat
  | 0, off => ([], off)
  | n + 1, off =>
    let w := BitVec.ofNat 32 (leAt b (off + 4) 4)
    let k := fld w 31 18
    let blk : TabBlock := ⟨fld w 8 0, fld w 10 9, fld w 14 11, fld w 17 15, runsOf b (off + 8) k⟩
    let r := substBlocks b n (off + 8 + 4 * k)
    ((leAt b off 4, blk) :: r.1, r.2)

/-- The SUBST blocks of a body, each with its offset and end (R318). -/
def substsOf (b : List Byte) : Nat → Nat → List (Nat × Nat × SubstBlk)
  | 0, _ => []
  | fuel + 1, off =>
    if b.length < off + 4 then []
    else
      let w := BitVec.ofNat 32 (leAt b off 4)
      let ns := fld w 19 8
      let segs := (List.range ns).map fun i =>
        let v := BitVec.ofNat 32 (leAt b (off + 4 + 4 * i) 4)
        (fld v 19 0, bit v 20, fld v 31 21)
      let r := substBlocks b (fld w 31 20) (off + 4 + 4 * ns)
      (off, r.2, ⟨fld w 7 0, segs, r.1⟩) :: substsOf b fuel r.2

/-- TABLES over a SUBST section. -/
def substErr (st : List Stage) (x : Sec) : Option ImgErr :=
  let l := substsOf x.body x.body.length 0
  let stop := match l.getLast? with
    | none => 0
    | some y => y.2.1
  firstFail [(l.find? fun y => y.2.2.blocks.any fun z => 8 < z.1 || slotBroken st z.2).map fun y =>
      chk 0xB (x.offset + y.1) x.idx,
    failIf (stop ≠ x.body.length) (chk 0xB (x.offset + stop) x.idx)]

/-! #### FOLD_ROUTING, register records, POWER, PASTURE_INIT -/

/-- A FOLD_ROUTING record (R298). -/
def segDrvOf (x : Nat) : SegDrv :=
  let w := BitVec.ofNat 64 x
  ⟨fld w 19 0, fld w 31 20, fld w 40 32⟩

/-- The FOLD_ROUTING records of a section. -/
def routingOf (x : Sec) : List SegDrv := (recordsOf 8 x).map fun r => segDrvOf (leAt r.2 0 8)

/-- A FOLD_ROUTING sects reserved bits and length (R298). -/
def routingErr (x : Sec) : Option ImgErr :=
  firstFail [failIf (x.body.length % 8 ≠ 0) (chk 1 x.offset x.idx),
    ((recordsOf 8 x).find? fun r => leAt r.2 0 8 / 2 ^ 41 ≠ 0 || (leAt r.2 4 2 % 512 < 256)).map fun r =>
      chk 1 r.1 x.idx]

/-- Register records with the type and SFLAGS of their section (R284). -/
def regRecsOf (x : Sec) : List (Nat × RegRec) :=
  (recordsOf 8 x).map fun r => (16 * x.type + x.sflags, leAt r.2 0 4, BitVec.ofNat 32 (leAt r.2 4 4))

/-- POWER records (R285). -/
def powRecOf (w : Word) : PowRec :=
  ⟨BitVec.ofNat 2 (fld w 31 30), BitVec.ofNat 2 (fld w 29 28), BitVec.ofNat 19 (fld w 27 9), BitVec.ofNat 9 (fld w 8 0)⟩

/-- Whether a POWER record holds a reserved value (R285). -/
def powReserved (r : PowRec) : Bool :=
  r.rsvd ≠ 0 || (if r.kind = 3 then 2 ≤ r.state.toNat || r.index ≠ 0 else r.state = 3)

/-- PASTURE_INIT records: address, length, ZERO, data; the fuel is the number of bytes (R285). What runs past the
body, or is left of it, is no error (DESIGN CHOICE, log entry 135). -/
def pinitOf (b : List Byte) : Nat → Nat → List (Nat × Nat × Bool × List Byte)
  | 0, _ => []
  | fuel + 1, off =>
    if b.length < off + 8 then []
    else
      let w := leAt b (off + 4) 4
      let n := w % 2 ^ 31
      let zero := 2 ^ 31 ≤ w
      (leAt b off 4, n, zero, if zero then [] else bytesAt b (off + 8) n) ::
        pinitOf b fuel (off + 8 + (if zero then 0 else n))

/-- PASTURE (R285, R296). -/
def pastureErr (x : Sec) : Option ImgErr :=
  ((pinitOf x.body x.body.length 0).find? fun r =>
    r.1 % 8 ≠ 0 || r.2.1 % 8 ≠ 0 || 0x08800000 < r.1 + r.2.1).map fun r => chk 0x10 r.1 x.idx

/-! ### The image -/

/-- The image the sections spell. -/
def imageOf (part : Bool) (ss : List Sec) : Image :=
  let all := fun (t : Nat) => ss.filter (·.type == t)
  let regs := (ss.filter fun x => 0xA ≤ x.type && x.type ≤ 0xE).flatMap regRecsOf
  { full := !part
    pens := (all 1).flatMap fun x => (recordsOf 16 x).map fun r => penOf r.2
    reloc := (all 2).flatMap fun x => relocOf x.body
    programs := (all 3).map fun x => (x.sflags, programOf x.body)
    routing := (all 4).flatMap routingOf
    period := (secOf ss 5).map fun x => (scheduleOf x.body).1
    stages := (secOf ss 5).map fun x => (scheduleOf x.body).2
    tables := (secOf ss 6).map fun x => tabSetOf 0 x.body
    alts := (all 7).map fun x => tabSetOf x.sflags x.body
    resv := (secOf ss 8).map fun x => (blocksOf x.body x.body.length 0).map (·.2)
    subst := (all 9).flatMap fun x => (substsOf x.body x.body.length 0).map (·.2.2)
    regs := regs
    power := (all 0xF).flatMap fun x => (recordsOf 4 x).map fun r => powRecOf (BitVec.ofNat 32 (leAt r.2 0 4))
    pinit := (all 0x10).flatMap fun x => pinitOf x.body x.body.length 0 }

/-! ### Registers of a section (R284) -/

/-- The blocks of registers R284 speaks of. -/
inductive RegBlock
  | ingest | egress | edge | pins | registers | none
  deriving DecidableEq, Repr

/-- The block of a register (R284). -/
def blockOfReg : RegName → RegBlock
  | .ingcfg => .ingest | .ingsrc => .ingest | .inggeom => .ingest | .ingrows => .ingest | .ingplanes => .ingest
  | .ingstat => .ingest
  | .egCfg => .egress | .egTime => .egress | .egCmd => .egress | .egAux => .egress
  | .pgCfg => .egress | .pgTime => .egress | .pgWidth => .egress | .pgCmd => .egress
  | .pgSafeLo => .egress | .pgSafeHi => .egress | .egStat => .egress | .pgStat => .egress | .pgLast => .egress
  | .cellin => .edge | .cellcfg => .edge | .seg => .edge
  | .pinCfg => .pins | .pinOut => .pins
  | .tickcfg => .registers | .tickwait => .registers | .synccfg => .registers | .ltintv => .registers
  | .ltnextLo => .registers | .ltnextHi => .registers | .hosttick => .registers
  | .epochLo => .registers | .epochHi => .registers | .cycle => .registers | .frameState => .registers
  | .tickstat => .registers | .stalecnt => .registers | .latemap => .registers
  | .foldId => .registers | .foldPen => .registers | .foldRoute => .registers | .foldStatus => .registers
  | .seqstat => .registers | .paraddr => .registers | .parcnt => .registers | .redstat => .registers
  | .racnt => .registers | .raabs => .registers
  | .engId => .registers | .engStatus => .registers | .traprec1 => .registers | .trapdesc => .registers
  | .errrec1 => .registers | .donecnt => .registers | .evcnt => .registers | .cachecnt => .registers
  | .engEcccnt => .registers
  | .nodeId => .registers | .nodeStatus => .registers | .nodeErrcnt0 => .registers | .nodeErrcnt1 => .registers
  | .combcnt => .registers | .slotwait => .registers | .bridgecnt => .registers | .probecnt => .registers
  | .nodeTrace => .registers
  | .laneStatus => .registers | .rxcnt0 => .registers | .rxcnt1 => .registers | .rxcnt2 => .registers
  | .timerxLo => .registers | .timerxHi => .registers | .statusrx => .registers | .statusinfo => .registers
  | .ptptimeLo => .registers | .ptptimeHi => .registers | .macLo => .registers | .macHi => .registers
  | .seqcfg => .registers | .faultcfg => .registers | .faultstat => .registers | .illstat => .registers
  | .racfg => .registers
  | .engCtrl => .registers | .engFlags => .registers | .traprec0 => .registers | .errrec0 => .registers
  | .nodeCfg => .registers | .probectl => .registers | .probematch0 => .registers | .probemask0 => .registers
  | .probematch1 => .registers | .probemask1 => .registers | .probethr => .registers | .probestat => .registers
  | .laneCfg => .registers | .ptprate => .registers | .ptpstepLo => .registers | .ptpstepHi => .registers
  | .laneIpv4 => .registers | .laneMcast => .registers
  | .encCfg => .registers | .ticksel => .registers | .syncphy => .registers
  | _ => .none

/-- The block a section type may address. -/
def blockOfSec : Nat → RegBlock
  | 0xA => .ingest
  | 0xB => .egress
  | 0xC => .edge
  | 0xD => .pins
  | _ => .registers

/-- The edge region of a register of the I/O ring. -/
def regionOf (r : Reg) : Nat :=
  match r.name with
  | .cellin => r.i / 256
  | .cellcfg => r.i / 256
  | .seg => r.i
  | .pinCfg => r.i / 12
  | .pinOut => r.i / 12
  | _ => 16

/-- The register an address names; the rails' segments exist in region 0 alone (R354, R389). -/
def mappedReg (a : Nat) : Option Reg :=
  match regAt a with
  | none => none
  | some r => if r.name = .seg && 1 ≤ r.i && 224 ≤ r.j then none else some r

/-- Whether an address is a fold register, named by logical fold in an image (R284). -/
def isFoldReg (r : Reg) : Bool := r.name.row.base / 0x1000 = 0x300

end Sys2Proof.Machine
end

