-- ==== Sys2Proof/Machine/Edge.lean ====
section
/-! DEFINITION. The I/O ring: segments and their guard, cells, pins (R298 to R300, R326 to R345). -/

namespace Sys2Proof.Machine

/-! ### Segment drivers -/

/-- The segment index of an edge segment register (R298, R326). -/
def edgeSegIndex (r j : Nat) : Nat := 2 ^ 19 + r * 2 ^ 13 + j

/-- The special sources (R330). -/
def specialOk (c : Nat) : Bool := c < 0x18 || (0x20 ≤ c && c < 0x30)

/-- Whether a driver code is allowed on segment `j` of region `r` (R329). -/
def driverOk (r j drv : Nat) : Bool :=
  match drv / 1024 with
  | 0 => drv % 1024 < 256 && j < 224
  | 1 => drv % 1024 < 192 && (224 ≤ j || drv % 256 / 12 = r)
  | 2 => drv % 1024 < 256 && specialOk (drv % 256)
  | _ => 224 ≤ j

/-- The driver that an edge segment register enables. -/
def regDriver (s : State) (seg : Nat) : Option Nat :=
  if seg < 2 ^ 19 then none
  else
    let w := s.reg .seg (seg / 2 ^ 13 % 16) (seg % 2 ^ 13)
    if seg % 2 ^ 13 < 256 && bit w 31 then some (fld w 11 0) else none

/-- The drivers in force on a segment: those of FOLD_ROUTING and of SUBST patches, and an edge segment's own register. -/
def driversOn (s : State) (seg : Nat) : List Nat :=
  (match s.ldr.inForce with
   | none => []
   | some f => (f.routing.filter (·.seg == seg)).map (·.drv)) ++ (regDriver s seg).toList

/-- The guard refuses a second driver of a segment: CFG.GUARD, the count, the Cairn, ROUTE_CONTENTION (R300, R402, R403). -/
def guardRefuse (seg drv : Nat) (s : State) : State :=
  let s := if bit (s.reg .cfgGuard) 31 then s else (s.setReg .cfgGuard 0 0 (at32 seg 0)).raise .cfgGuard 0 (bit32 true 31)
  let s := s.count .guardcnt 0 31 0 1
  inOneCycle (fun s => fire 12 seg (cairnWrite 0x71 0 (leBytes 3 seg ++ [0] ++ leBytes 2 drv) false true s)) s

/-- A driver is enabled on a free segment in this cycle (R300). -/
def noteEnable (seg : Nat) (s : State) : State :=
  let t := s.frame.time
  { s with edge := { s.edge with enables := (seg, t) :: s.edge.enables.filter fun x => x.2 == t && x.1 != seg } }

/-- Whether a new driver takes a segment from one that stands on it: both were enabled in one cycle, when the segment was free, and the new
one has the lower code (R300; log entry 123). -/
def takesOver (s : State) (seg drv old : Nat) : Bool := s.edge.enables.contains (seg, s.frame.time) && drv < old

/-- The routing in force without a driver of a segment. -/
def dropRouted (seg drv : Nat) (s : State) : State :=
  match s.ldr.inForce with
  | none => s
  | some f => { s with ldr := { s.ldr with inForce := some { f with routing := f.routing.filter fun y => !(y.seg == seg && y.drv == drv) } } }

/-- A write of EDGE.SEG: a change of driver under EN is no business of the guard; an enable of a segment that another driver has is
ignored, or the other one is, where both came in one cycle (R300, R331). -/
def writeSeg (r j : Nat) (w : Word) (s : State) : State :=
  let seg := edgeSegIndex r j
  let drv := fld w 11 0
  let routed := (s.ldr.inForce.getD {}).routing
  if !(bit w 31) then s.setReg .seg r j w
  else
    match routed.find? fun x => x.seg == seg && x.drv != drv with
    | none => (if (driversOn s seg).isEmpty then noteEnable seg s else s).setReg .seg r j w
    | some x =>
      if takesOver s seg drv x.drv then guardRefuse seg x.drv ((dropRouted seg x.drv s).setReg .seg r j w)
      else guardRefuse seg drv (s.setReg .seg r j (setBit w 31 false))

/-- Put a driver on a segment: that of an edge segment stands in the segment's own register (R298, R318). -/
def putDriver (owner seg drv : Nat) (s : State) : State :=
  if 2 ^ 19 ≤ seg then s.setReg .seg (seg / 2 ^ 13 % 16) (seg % 2 ^ 13) (bit32 true 31 ||| at32 (drv % 4096) 0)
  else
    match s.ldr.inForce with
    | none => s
    | some f => { s with ldr := { s.ldr with inForce := some { f with routing := f.routing ++ [⟨seg, drv, owner⟩] } } }

/-- Take a driver off a segment. -/
def dropDriver (seg drv : Nat) (s : State) : State :=
  if regDriver s seg = some drv then s.setRf .seg (seg / 2 ^ 13 % 16) 31 31 0 (seg % 2 ^ 13) else dropRouted seg drv s

/-- Enable a driver under the guard (R300). -/
def enableDriver (owner seg drv : Nat) (s : State) : State :=
  match (driversOn s seg).find? (· != drv) with
  | none => if (driversOn s seg).isEmpty then putDriver owner seg drv (noteEnable seg s) else s
  | some d =>
    if takesOver s seg drv d then guardRefuse seg d (putDriver owner seg drv (dropDriver seg d s)) else guardRefuse seg drv s

/-- One segment record of a SUBST patch: segment, enable or disable, driver (R300, R318). -/
def patchSegment (owner : Nat) (x : Nat × Bool × Nat) (s : State) : State :=
  if s.ldr.inForce.isNone then s
  else if x.2.1 then enableDriver owner x.1 x.2.2 s
  else dropDriver x.1 x.2.2 s

/-! ### Stage windows -/

/-- The stage whose window holds the current cycle (FRAME.STATE). -/
def State.inStage (s : State) : Option Nat :=
  match stageAt s.frame.cycle 0 s.stages with
  | none => none
  | some (k, x) => if s.frame.ticked && s.frame.cycle < x.deadline then some k else none

/-- Whether the guard band runs (FRAME.STATE.GUARD). -/
def State.inGuard (s : State) : Bool := s.frame.ticked && s.guard ≤ s.frame.cycle && s.frame.cycle < s.period

/-! ### Cells -/

/-- Whether a region is being loaded (R310). -/
def State.regionLoading (s : State) (r : Nat) : Bool := bit s.edge.loading r

/-- Whether an edge region runs (R8). -/
def State.regionRuns (s : State) (r : Nat) : Bool := s.ldr.inForce.isSome && !(s.regionLoading r)

/-- An encoder unit. -/
def State.enc (s : State) (i : Nat) : Enc := Store.get s.edge.encs {} i

/-- The value of a special source in the current cycle (R330). -/
def specialBit (s : State) (c : Nat) : Bool :=
  match c with
  | 0 => false
  | 1 => true
  | 2 => s.edge.tickIn
  | 3 => s.frame.ticked && s.frame.cycle == 0
  | 4 => s.inGuard
  | 5 => s.frame.hold
  | 6 => s.inStage.isSome
  | _ =>
    if 8 ≤ c && c < 0x18 && c % 4 = 1 then (s.enc ((c - 8) / 4)).back != Config.forwardLevel
    else if 8 ≤ c && c < 0x18 && c % 4 = 3 then bit (s.reg .encStat ((c - 8) / 4)) 31
    else bit s.edge.strobe c

/-- What a segment carries in a region by its number, given the cells' outputs: 0 without an enabled driver; inputs are ignored until a
configuration is in force; a rail driven from a region being loaded is 0 (R327 to R329, R339, R424). -/
def segBit (s : State) (cell : Nat → Bool) (r n : Nat) : Bool :=
  let rail := 224 ≤ n
  let w := s.reg .seg (if rail then 0 else r) n
  let drv := fld w 11 0
  if !(bit w 31) || (rail && bit s.edge.railOff (n - 224)) then false
  else
    match drv / 1024 with
    | 0 => cell (256 * r + drv % 256)
    | 1 => bit s.edge.inp (drv % 256) && s.regionRuns (drv % 256 / 12)
    | 2 => specialBit s (drv % 256)
    | _ => !(s.regionLoading (drv / 64 % 16)) && cell (256 * (drv / 64 % 16) + drv % 64)

/-- The truth table of a cell over its four inputs (R328). -/
def lutBit (s : State) (cell : Nat → Bool) (c : Nat) : Bool :=
  let w := s.reg .cellin c
  let i := fun (k : Nat) => (segBit s cell (c / 256) (fld w (8 * k + 7) (8 * k))).toNat
  bit (s.reg .cellcfg c) (16 + 8 * i 3 + 4 * i 2 + 2 * i 1 + i 0)

/-- What a cell drives: INIT while its region loads, its flip-flop, or its table in the same cycle; a path of cells longer
than the ring has cells closes on itself (R328, R339). -/
def cellBit (s : State) : Nat → Nat → Bool
  | 0, c => Config.cellLoop c s.frame.cycle
  | k + 1, c =>
    let w := s.reg .cellcfg c
    if s.regionLoading (c / 256) then bit w 4
    else if bit w 3 then bit s.edge.ff c
    else lutBit s (cellBit s k) c

/-- The output of a cell. -/
def State.cell (s : State) (c : Nat) : Bool := cellBit s 4096 c

/-- What a segment carries. -/
def State.segment (s : State) (r n : Nat) : Bool := segBit s s.cell r n

/-! ### Pins -/

/-- What a pin's driver does: off with a pull (0 none, 1 down, 2 up), or driving a level. -/
inductive PinDrive
  | off (pull : Nat)
  | drive (level : Bool)
  deriving DecidableEq, Repr

/-- Whether a pin is in its safe state (R338); those of a pin group whose configuration is being replaced are (R309). -/
def State.pinIsSafe (s : State) (p : Nat) : Bool :=
  let w := s.reg .pinOut p
  s.ldr.inForce.isNone || s.regionLoading (p / 12) || s.edge.halted || fld w 15 14 = 2 ||
    (fld w 15 14 = 1 && bit s.edge.grpLoad (fld w 11 8))

/-- The safe state of a pin: the map's, or high-Z with a pull-down before the hub has applied it (R336, R337). -/
def State.safeDrive (s : State) (p : Nat) : PinDrive :=
  let w := s.reg .pinSafe p
  if !s.edge.mapped then .off 1
  else if bit w 3 then .drive (bit w 4)
  else
    match fld w 2 0 with
    | 0 => .off 1
    | 1 => .off 2
    | 2 => .off 0
    | 3 => .drive false
    | _ => .drive true

/-- The level a de-energised pin has (R342). -/
def State.deen (s : State) (p : Nat) : Bool := bit (s.reg .pinSafe p) 3 && bit (s.reg .pinSafe p) 4

/-- The output value of a pin: a segment, or its bit of a pin group (R335, R342). -/
def State.pinValue (s : State) (p : Nat) : Bool :=
  let w := s.reg .pinOut p
  if fld w 15 14 = 0 then s.segment (p / 12) (fld w 7 0) else bit s.edge.on p != s.deen p

/-- What a pin drives (R333, R338). -/
def State.pinDrive (s : State) (p : Nat) : PinDrive :=
  let w := s.reg .pinCfg p
  let pull := fld w 7 6
  if s.pinIsSafe p then s.safeDrive p
  else
    match fld w 2 0 with
    | 1 => .drive (s.pinValue p)
    | 2 => if s.pinValue p then .off pull else .drive false
    | 3 => if s.segment (p / 12) (fld (s.reg .pinOut p) 23 16) then .drive (s.pinValue p) else .off pull
    | _ => .off pull

/-- The level at a pin: what its driver puts there, else what the outside last did, else its pull (R332 to R334, R336). -/
def State.padBit (s : State) (p : Nat) : Bool :=
  match s.pinDrive p with
  | .drive v => v
  | .off pull =>
    if bit s.edge.outside p then bit s.edge.pad p else if pull = 0 then Config.floatLevel p s.frame.time else pull == 2

/-- The levels at every pin. -/
def State.pads (s : State) : BitVec 192 := (List.range 192).foldl (fun v p => setBit v p (s.padBit p)) 0

/-- PIN_INPUT: the outside puts a level on a pin; two samples later it shows (R334). -/
def pinInput (p : Nat) (level : Bool) (s : State) : State :=
  { s with edge := { s.edge with pad := setBit s.edge.pad p level, outside := setBit s.edge.outside p true } }

/-- De-energise a pin of a pin group, and stop its timer (R344, R345). -/
def releasePin (p : Nat) (s : State) : State :=
  { s with edge := { s.edge with on := setBit s.edge.on p false, onNext := setBit s.edge.onNext p false
                                 timers := Store.set s.edge.timers none p none } }

end Sys2Proof.Machine
end

