-- ==== Sys2Proof/Machine/Clock.lean ====
section
/-! DEFINITION. ACLK cycles: what the ring, the encoder inputs, the tick net, the probe outputs and the command samples do in each; time
that passes; tick requests and encoder counts (R15, R18, R22, R23, R86, R330, R334, R340, R343, R346 to R354). -/

namespace Sys2Proof.Machine

/-! ### The signals of a fold (R86, R353) -/

/-- POWER fields (FOLD[PF].STATUS, BANK[b].STATUS, ENG[e].STATUS). -/
def powerCode : Power → Nat
  | .off => 0 | .retain => 1 | .on => 2 | .waking => 3

/-- HSTATE fields (R270). -/
def hurdleCode : Hurdle → Nat
  | .opened => 0 | .closing => 1 | .closed => 2

/-- POWER of a fold; an ISOLATED one reads OFF once sealed (R442). -/
def foldPower (f : Fold) : Nat := if f.role = .isolated && f.hurdle == .closed then 0 else powerCode f.power

/-- FOLD[PF].STATUS. -/
def readFoldStatus (s : State) (pf : Nat) : Word :=
  let f := s.fold pf
  let m := match s.penOfFold pf with
    | none => 0
    | some p => bit32 p.faulted 4 ||| bit32 p.late 3
  at32 (foldPower f) 30 ||| bit32 (f.hurdle == .closed) 7 ||| bit32 f.lost 6 ||| bit32 f.subst 5 ||| m

/-- FOLD[PF].SEQSTAT: 0 unless the fold is ON; during run-ahead and a cancel PC and WB show the alternate target and WB0
(R86, R167). -/
def readSeqstat (s : State) (pf : Nat) : Word :=
  match s.penOfFold pf with
  | none => 0
  | some p =>
    match p.leader with
    | none => 0
    | some lead =>
      if (s.fold pf).power ≠ .on then 0
      else
        let q := s.seq lead
        let x : Bool × BitVec 11 × BitVec 14 := match q.ra, q.cancel with
          | some r, _ => (true, r.core.wb, r.alt)
          | none, some a => (true, q.core.wb, a)
          | none, none => (false, q.core.wb, q.pc)
        bit32 (p.run && !p.stopped && s.running && !s.frame.hold) 31 ||| bit32 x.1 30 ||| at32 (p.stage % 16) 26 |||
          bit32 (p.yielded.contains p.stage) 25 ||| at32 x.2.1.toNat 14 ||| at32 x.2.2.toNat 0

/-- A fold signal of the probe multiplexers: RUN, RA, LATE, FAULTED, YIELDED, hurdle closed (R353). -/
def foldSignal (s : State) (pf k : Nat) : Bool :=
  match k with
  | 0 => bit (readSeqstat s pf) 31
  | 1 => bit (readSeqstat s pf) 30
  | 2 => bit (readFoldStatus s pf) 3
  | 3 => bit (readFoldStatus s pf) 4
  | 4 => bit (readSeqstat s pf) 25
  | 5 => bit (readFoldStatus s pf) 7
  | _ => false

/-! ### Probe outputs (R353, R354) -/

/-- What a probe multiplexer selects, in the current cycle (R353). -/
def probeSource (s : State) (k : Nat) : Bool :=
  let w := s.reg .prbmux k
  let n := fld w 19 0
  match fld w 31 29 with
  | 1 => 2 ^ 19 ≤ n && n % 2 ^ 13 < 256 && s.segment (n / 2 ^ 13 % 16) (n % 2 ^ 13)
  | 2 => specialBit s (n % 256)
  | 3 => s.edge.hits.contains (n % 512)
  | 4 => foldSignal s (n % 512) (fld w 11 9)
  | 5 => s.edge.marks.contains (BitVec.ofNat 16 n)
  | _ => false

/-- The path of a probe output one cycle on: 24 cycles after a rising edge of the source the pin goes high for the least width, or for
as long as the source did (R354). -/
def probeCycle (s : State) (k : Nat) : Prb :=
  let w := s.reg .prbmux k
  let x := Store.get s.edge.prb {} k
  if fld w 31 29 = 0 then {}
  else
    let l := x.line <<< 1 ||| (BitVec.ofBool (probeSource s k)).setWidth 25
    { line := l, left := if bit l 23 && !(bit l 24) then max 4 (2 ^ fld w 27 24) else x.left - 1 }

/-- Whether a full load runs, from T0 to T1. -/
def State.fullLoad (s : State) : Bool :=
  match s.ldr.load with
  | none => false
  | some l => l.img.full

/-- What a probe output drives: low while KIND is off, without a configuration in force, from T0 to T1 of a full load, until the hub has
applied the pin-safe map and from an orderly stop on; nothing without power (R353, R354, R424, R431; log entry 122). -/
def State.probeOut (s : State) (k : Nat) : PinDrive :=
  let w := s.reg .prbmux k
  let x := Store.get s.edge.prb {} k
  if s.hub.supply = .off then .off 0
  else .drive (s.edge.mapped && !s.edge.halted && s.ldr.inForce.isSome && !s.fullLoad && fld w 31 29 ≠ 0 && ((bit x.line 23 || 0 < x.left) != bit w 28))

/-! ### The tick net (R348) -/

/-- The level of the tick net in the current cycle. -/
def tickNet (s : State) : Bool :=
  match s.rf .ticksel 0 1 0 with
  | 0 => s.edge.tickIn
  | 1 => bit s.edge.strobe (10 + 4 * s.rf .ticksel 0 3 2)
  | 2 => s.segment 0 (224 + s.rf .ticksel 0 8 4)
  | _ => false

/-- A rising edge of the tick net is a tick request to come when TICKCFG selects it (R348). -/
def netStep (s : State) : State :=
  let v := tickNet s
  { s with edge := { s.edge with
      net := v, netEdges := s.edge.netEdges + (v && !s.edge.net && s.rf .tickcfg 0 2 0 == 1).toNat } }

/-! ### Encoder inputs (R346) -/

/-- The inputs of an encoder unit pass their filter: a level that has been stable for 4 cycles is accepted; a unit that is off takes the
levels it finds (log entry 93). -/
def encCycle (s : State) (i : Nat) : Enc :=
  let e := s.enc i
  let w := s.reg .encCfg i
  let a := s.segment 0 (224 + fld w 27 23)
  let b := s.segment 0 (224 + fld w 22 18)
  if !(bit w 31) then { e with a := a, b := b, seen := [], na := 0, nb := 0 }
  else
    let x := e.seen.getLastD (e.a, e.b)
    let na := if a = x.1 then 0 else e.na + 1
    let nb := if b = x.2 then 0 else e.nb + 1
    { e with na := na % 4, nb := nb % 4
             seen := if na = 4 || nb = 4 then e.seen ++ [(if na = 4 then a else x.1, if nb = 4 then b else x.2)] else e.seen }

/-! ### The commands that egress channels find (R340, R378) -/

/-- The CFG register of an egress channel. -/
def egCfgReg : EgCh → Reg
  | .pins g => ⟨.pgCfg, g, 0⟩
  | .lane l k => ⟨.egCfg, l, k⟩

/-- The stored bits of a register by its name and indexes. -/
def State.regR (s : State) (r : Reg) : Word := s.reg r.name r.i r.j

/-- Every egress channel. -/
def allChannels : List EgCh :=
  (List.finRange 16).map EgCh.pins ++ (List.finRange 32).flatMap fun l => (List.finRange 4).map (EgCh.lane l)

/-- The latch cycle of a channel: the deadline of the last stage of its pen, or of the schedule (R37). -/
def State.latchCycle (s : State) (owner : Nat) : Nat :=
  match (s.stages.filter fun x => x.parts.any (·.1 == owner)).getLast? with
  | some x => x.deadline
  | none => match s.stages.getLast? with
    | some x => x.deadline
    | none => 0

/-- The place of a channel among the samples. -/
def egKey : EgCh → Nat
  | .pins g => g
  | .lane l k => 16 + 4 * l + k

/-- Where a channel's command words stand: logical fold, first word, number (R340, R378). -/
def commandWords (s : State) : EgCh → Nat × Nat × Nat
  | .pins g => (s.rf .pgCmd g 31 24, s.rf .pgCmd g 15 0, 1)
  | .lane l k => (s.rf .egCmd l 31 24 k, s.rf .egCmd l 15 0 k, s.rf .egCmd l 20 16 k + 1)

/-- Words as a bank holds them, with their ECC standing. -/
def rawWords (s : State) (b word n : Nat) : List (Dword × Ecc) :=
  (List.range n).map fun i => (memWord s.mem (wordAddr b (word + i)), s.eccOf b (word + i))

/-- What a channel finds at the end of its latch cycle - 4: nothing where its logical fold has no bank. -/
def commandSample (s : State) (c : EgCh) : Option (List (Dword × Ecc)) :=
  let x := commandWords s c
  match s.bankOf x.1 with
  | none => none
  | some b => some (rawWords s b x.2.1 x.2.2)

/-- The channels whose latch cycle - 4 ends in the next `d` cycles find their command words (R340, R378). -/
def takeSamples (d : Nat) (s : State) : State :=
  if s.ldr.inForce.isNone || !s.frame.ticked then s
  else
    let due := allChannels.filter fun c =>
      let w := s.regR (egCfgReg c)
      let t := s.latchCycle (fld w 7 0) - 4
      bit w 31 && s.frame.cycle ≤ t && t < s.frame.cycle + d
    { s with edge := { s.edge with samples := due.foldl (fun m c => Store.set m none (egKey c) (commandSample s c)) s.edge.samples } }

/-! ### Time -/

/-- The cells whose flip-flop is in use: a cell's CELLCFG word stands at 0x70_0004 + 8 × cell. -/
def ffCells (s : State) : List Nat :=
  s.regs.filterMap fun x =>
    let c := (x.1 - 0x700000) / 8
    if 0x700000 ≤ x.1 && x.1 < 0x708000 && x.1 % 8 = 4 && bit x.2 3 && s.regionRuns (c / 256) then some c else none

/-- One ACLK cycle of the ring: flip-flops, the pins' samplers, the encoder inputs, the probe outputs; pins of pin groups take their new
levels, and one-cycle sources end (R328, R330, R334, R343, R346, R354). -/
def edgeCycle (s : State) : State :=
  let s := netStep s
  let ff := if s.ldr.inForce.isNone then s.edge.ff
    else (ffCells s).foldl (fun v c => setBit v c (lutBit s s.cell c)) s.edge.ff
  { s with edge := { s.edge with
      ff := ff, inp := s.edge.samp, samp := s.pads, strobe := 0, on := s.edge.onNext, marks := [], hits := []
      encs := (List.range 4).foldl (fun m i => Store.set m {} i (encCycle s i)) s.edge.encs
      prb := (List.range 8).foldl (fun m k => Store.set m {} k (probeCycle s k)) s.edge.prb } }

/-- The clock counts on: time, and the frame cycle once a tick has come (R14, R17). -/
def clockOn (d : Nat) (s : State) : State :=
  { s with frame := { s.frame with
      time := s.frame.time + d,
      cycle := if s.frame.ticked then min (s.frame.cycle + d) (2 ^ 31 - 1) else s.frame.cycle } }

/-- ACLK cycles of the ring, one by one. -/
def ringCycles : Nat → State → State
  | 0, s => s
  | n + 1, s => ringCycles n (clockOn 1 (edgeCycle s))

/-- Whether a segment carries a pin's input, which an output pin may follow: EDGE.SEG stands at 0x70_8000 to 0x70_BFFF. -/
def pinFed (s : State) : Bool :=
  s.regs.any fun x => 0x708000 ≤ x.1 && x.1 < 0x70C000 && bit x.2 31 && fld x.2 11 10 = 1

/-- Whether the ring has no state older than the samplers' two cycles: no flip-flop, encoder unit or probe output runs, no rail
drives the tick net, and no segment carries a pin's input back to the pins. -/
def ringStill (s : State) : Bool :=
  (ffCells s).isEmpty && !(pinFed s) && s.rf .ticksel 0 1 0 ≠ 2 && (List.range 4).all (fun i => !(bit (s.reg .encCfg i) 31)) &&
    (List.range 8).all fun k => s.rf .prbmux k 31 29 = 0

/-- Let cycles pass; those that cannot show are not run one by one (log entry 2). -/
def passTime (d : Nat) (s : State) : State :=
  let s := takeSamples d s
  if d ≤ 3 || !(ringStill s) then ringCycles d s else ringCycles 2 (clockOn (d - 3) (ringCycles 1 s))

/-- Let time pass up to a frame cycle, if it has not come (R14, R17). -/
def advanceTo (c : Nat) (s : State) : State :=
  if s.frame.ticked && s.frame.cycle < c then passTime (c - s.frame.cycle) s else s

/-- Let time since t0 pass up to a time. -/
def advanceTime (t : Nat) (s : State) : State :=
  if s.frame.time < t then passTime (t - s.frame.time) s else s

/-! ### Tick requests -/

/-- A tick request of a source: absorbed as the late original of a substituted tick, discarded as extra, or held; a source
that TICKCFG does not select requests nothing (R15, R18, R22, R23). -/
def tickRequest (src : Nat) (s : State) : State :=
  let f := s.frame
  if s.rf .tickcfg 0 2 0 ≠ src || !f.ticked then s
  else if f.absorb && f.cycle < min (s.rf .tickwait 0 29 0) (s.period - 1) then
    { s with frame := { f with absorb := false } }
  else if f.held then fire 0 0 ({ s with hub := { s.hub with missedNow := true } }.count .tickstat 0 15 0 1)
  else { s with frame := { f with held := true } }

/-! ### Encoder units -/

/-- Replace an encoder unit. -/
def State.setEnc (s : State) (i : Nat) (e : Enc) : State :=
  { s with edge := { s.edge with encs := Store.set s.edge.encs {} i e } }

/-- Raise a one-cycle special source. -/
def strobe (c : Nat) (s : State) : State := { s with edge := { s.edge with strobe := setBit s.edge.strobe c true } }

/-- One count of an encoder unit and its divider (R346, R347). -/
def encCountBy (i : Nat) (back : Bool) (s : State) : State :=
  let e := s.enc i
  let c := s.reg .encCount i
  let s := s.setReg .encCount i 0 (if back then c - 1 else c + 1)
  let s := strobe (8 + 4 * i) s
  let e := { e with back := back }
  if back then s.setEnc i (if e.rem = 0 then { e with debt := e.debt + 1 } else { e with rem := e.rem - 1 })
  else if 0 < e.debt then s.setEnc i { e with debt := e.debt - 1 }
  else if s.rf .encCfg i 15 0 ≤ e.rem + 1 then strobe (10 + 4 * i) (s.setEnc i { e with rem := 0 })
  else s.setEnc i { e with rem := e.rem + 1 }

/-- One accepted sample of A and B is counted (R346). -/
def encoderInput (i : Nat) (a b : Bool) (s : State) : State :=
  let e := s.enc i
  let w := s.reg .encCfg i
  let mode := fld w 30 29
  let rev := bit w 28
  let s := s.setEnc i { e with a := a, b := b }
  let da := e.a != a
  let db := e.b != b
  if !(bit w 31) then s
  else if mode ≤ 1 && da && db then
    (s.raise .encStat i (bit32 true 31)).count .encStat i 15 0 1
  else if mode = 0 then
    if da then encCountBy i ((a == b) != rev) s
    else if db then encCountBy i ((a != b) != rev) s else s
  else if da && a then encCountBy i (b != rev) s
  else s

/-- Let up to `n` cycles pass until an encoder unit has an accepted sample to count. -/
def awaitSample : Nat → Nat → State → State
  | 0, _, s => s
  | n + 1, i, s => if (s.enc i).seen.isEmpty then awaitSample n i (passTime 1 s) else s

/-- ENCODER_COUNT: the oldest accepted sample is counted; levels that have been at the pins for their samplers and the filter to
pass are accepted first, and where none has been accepted, or one of other levels, nothing changes (R334, R346). -/
def encoderCount (i : Nat) (a b : Bool) (s : State) : State :=
  let t := awaitSample 6 i s
  match (t.enc i).seen with
  | [] => s
  | x :: l => if x = (a, b) then encoderInput i a b (t.setEnc i { t.enc i with seen := l }) else s

/-- Let up to `n` cycles pass until the tick net has risen. -/
def awaitEdge : Nat → State → State
  | 0, s => netStep s
  | n + 1, s =>
    let s := netStep s
    if s.edge.netEdges = 0 then awaitEdge n (passTime 1 s) else s

/-- TICK_NET_EDGE: TICK_IN takes a level, or what drives the net has changed; the oldest rising edge of the net becomes a tick request,
and a command without any requests nothing (R348). -/
def tickNetEdge (pin : Option Bool) (s : State) : State :=
  let s := match pin with
    | none => s
    | some b => { s with edge := { s.edge with tickIn := b } }
  let t := awaitEdge (if pin.isNone then 3 else 0) s
  if t.edge.netEdges = 0 then (if pin.isNone then s else t)
  else tickRequest 1 { t with edge := { t.edge with netEdges := t.edge.netEdges - 1 } }

/-! ### The commands -/

/-- PIN_INPUT (R334). -/
def execPinInput (p : Fin 192) (level : Bool) (s : State) : Out := .next (pinInput p level s)

/-- ENCODER_COUNT (R346). -/
def execEncoderCount (i : Fin 4) (a b : Bool) (s : State) : Out := .next (encoderCount i a b s)

/-- TICK_NET_EDGE (R348). -/
def execTickNetEdge (s : State) (pin : Option Bool := none) : Out := .next (tickNetEdge pin s)

/-- SYNC_IN_LOCK: LOCK, and the level that CLKSTAT shows (R349). -/
def execSyncInLock (lock : Bool) (s : State) : Out :=
  .next ((s.setRf .syncstat 0 31 31 lock.toNat).setRf .clkstat 0 6 6 lock.toNat)

/-- REFCLK_LOST: the clock changes to the internal oscillator, once in a start-up (R352). -/
def execRefclkLost (s : State) : Out :=
  .next (if bit (s.reg .clkstat) 2 || fld (s.reg .clkstat) 1 0 = 0 then s
    else cairnWrite 0x78 0 [] false true (s.setRf .clkstat 0 2 2 1))

/-- PULSE_TIMER_EXPIRY: the pin is de-energised (R344). -/
def execPulseTimerExpiry (p : Fin 192) (s : State) : Out :=
  .next (match Store.get s.edge.timers none p with
    | none => s
    | some t =>
      let s := advanceTime t s
      releasePin p s)

end Sys2Proof.Machine
end

