-- ==== Sys2Proof/Machine/Egress.lean ====
section
/-! DEFINITION. Egress: late work, the latch of a command, emission on pins and lanes, the halt messages (R35 to R39, R309,
R340 to R345, R364, R377 to R382). -/

namespace Sys2Proof.Machine

/-! ### On time and late -/

/-- The stages a pen takes part in. -/
def State.stagesOfPen (s : State) (first : Nat) : List Nat :=
  (List.range s.stages.length).filter fun k => match s.stages[k]? with
    | none => false
    | some x => x.parts.any (·.1 == first)

/-- Whether an activation is replacing a pen, from T0 to T1, or its loading failed and the pen stays stopped (R304, R305). -/
def State.replacing (s : State) (first : Nat) : Bool :=
  s.ldr.stopped.contains first ||
  match s.ldr.load with
  | none => false
  | some l => l.replaced.contains first

/-- Whether a pen has a LOST member. -/
def State.hasLost (s : State) (p : Pen) : Bool := (s.memberFolds p).any fun pf => (s.fold pf).lost

/-- A pen held out of ON by its recorded state or by READY: neither on time nor late (R35, R436). -/
def State.penHeld (s : State) (p : Pen) : Bool := !s.running || p.recorded != .on

/-- Whether a pen is on time up to now (R35). -/
def State.penOnTime (s : State) (p : Pen) : Bool :=
  (s.stagesOfPen p.cfg.first).all p.yielded.contains && !p.late && !p.faulted && !(s.hasLost p) && !p.shedNow &&
    !p.substPend && !(s.replacing p.cfg.first)

/-- Whether a pen is late (R35). -/
def State.penLate (s : State) (p : Pen) : Bool := s.replacing p.cfg.first || (!(s.penHeld p) && !(s.penOnTime p))

/-! ### Channels -/

/-- The STAT register of an egress channel. -/
def egStatReg : EgCh → Reg
  | .pins g => ⟨.pgStat, g, 0⟩
  | .lane l k => ⟨.egStat, l, k⟩

/-- An egress channel's state. -/
def State.egress (s : State) : EgCh → Egress
  | .pins g => Store.get s.edge.groups {} g
  | .lane l k => Store.get (s.lane l).eg {} k

/-- Change a lane. -/
def State.modLane (s : State) (l : Nat) (g : Lane → Lane) : State :=
  { s with lanes := Store.set s.lanes {} l (g (s.lane l)) }

/-- Replace an egress channel's state. -/
def State.setEgress (s : State) (c : EgCh) (e : Egress) : State :=
  match c with
  | .pins g => { s with edge := { s.edge with groups := Store.set s.edge.groups {} g e } }
  | .lane l k => s.modLane l fun x => { x with eg := Store.set x.eg {} k e }

/-- Whether a channel's configuration is being replaced (R309). -/
def State.egLoading (s : State) : EgCh → Bool
  | .pins g => bit s.edge.grpLoad g
  | .lane l k => bit (s.lane l).chLoad k

/-- Words of a bank as a channel found them: none where one holds an uncorrectable error (R227, R228, R341). -/
def foundWords (b word : Nat) : List (Dword × Ecc) → State → Option (List Dword) × State
  | [], s => (some [], s)
  | x :: l, s =>
    if x.2 = .double then (none, eccRecord b word false s)
    else
      let r := foundWords b (word + 1) l (if x.2 = .single then eccCorrect b word s else s)
      (r.1.map (x.1 :: ·), r.2)

/-- The bank of a logical fold, where an egress channel can read it (R341). -/
def egressBank (s : State) (lf : Nat) : Option Nat :=
  match s.bankOf lf with
  | none => none
  | some b => if (s.bank b).power != .on || s.bankShut b then none else some b

/-- The pen's command words of a channel, as it found them 4 cycles before its latch cycle (R340, R378). -/
def ownWords (c : EgCh) (s : State) : Option (List Dword) × State :=
  let x := commandWords s c
  match egressBank s x.1 with
  | none => (none, s)
  | some b => foundWords b x.2.1 ((Store.get s.edge.samples none (egKey c)).getD (rawWords s b x.2.1 x.2.2)) s

/-- The safe command words of a channel: a pin group holds them itself (R340, R378). -/
def safeWords (c : EgCh) (s : State) : Option (List Dword) × State :=
  match c with
  | .pins g => (some [BitVec.ofNat 64 ((s.reg .pgSafeHi g).toNat * 2 ^ 32 + (s.reg .pgSafeLo g).toNat)], s)
  | .lane l k =>
    let w := s.rf .egAux l 15 0 k
    match egressBank s (s.rf .egCmd l 31 24 k) with
    | none => (none, s)
    | some b => foundWords b w (rawWords s b w (s.rf .egCmd l 20 16 k + 1)) s

/-- What a channel latches under its late policy: ACTION, words, and whether words it needed could not be read (R36, R378,
R379). -/
def policyCommand (c : EgCh) (e : Egress) (run : Nat) (s : State) : (Nat × List Dword × Bool) × State :=
  let w := s.regR (egCfgReg c)
  let safe := fun (s : State) => match safeWords c s with
    | (some l, s) => ((2, l, false), s)
    | (none, s) => ((4, ([] : List Dword), true), s)
  match fld w 30 29 with
  | 0 =>
    match e.held with
    | some l => if run < fld w 28 21 then ((3, l, false), s) else safe s
    | none => safe s
  | 1 => safe s
  | _ => ((0, [], false), s)

/-- Queue a latched command with its emission frame and cycle, and a pin group's PULSE and WIDTH (R343, R345). -/
def queueCommand (c : EgCh) (latchAt action : Nat) (words : List Dword) (run : Nat) (s : State) : State :=
  let delay := fld (s.regR (egCfgReg c)) 20 13
  let d := match c with
    | .pins g => s.rf .pgTime g 29 0
    | .lane l k => s.rf .egTime l 29 0 k
  let lc := if delay = 0 && d ≤ latchAt then latchAt + 1 else d
  let e := s.egress c
  let pw := match c with
    | .pins g => (bit (s.reg .pgCfg g) 12, s.rf .pgWidth g 15 0)
    | .lane _ _ => (false, 0)
  let q := e.queue ++ [⟨delay, lc, action, words, run, s.frame.epoch, pw.1, pw.2⟩]
  s.setEgress c { e with queue := q.drop (q.length - 256) }

/-- Record the outcome of a latch in the channel's STAT. -/
def latchStat (c : EgCh) (late unread : Bool) (run : Nat) (s : State) : State :=
  let r := egStatReg c
  s.setReg r.name r.i r.j (bit32 late 31 ||| at32 (min run 255) 23 ||| bit32 unread 22)

/-- EGRESS_LATCH: a channel latches one command for the frame (R36, R37, R309, R340, R341, R378, R379, R382, R436). -/
def egressLatch (c : EgCh) (s : State) : State :=
  let w := s.regR (egCfgReg c)
  let e := s.egress c
  if s.ldr.inForce.isNone || !s.frame.ticked || s.frame.hold || s.edge.halted || !(bit w 31) || e.latched ||
      s.egLoading c then s
  else
    let lc := s.latchCycle (fld w 7 0)
    let s := advanceTo lc s
    match s.penAt (fld w 7 0) with
    | none => s
    | some p =>
      if s.penHeld p && !(s.replacing p.cfg.first) then
        let s := s.setEgress c { e with latched := true }
        queueCommand c lc 0 [] e.run (latchStat c false false e.run s)
      else
        let own := if s.penOnTime p then ownWords c s else (none, s)
        match own with
        | (some l, s) =>
          let s := s.setEgress c { e with latched := true, run := 0, held := some l }
          queueCommand c lc 1 l 0 (latchStat c false false 0 s)
        | (none, s') =>
          let run := e.run + 1
          let r := policyCommand c e run s'
          let s2 := r.2.setEgress c { e with latched := true, run := run }
          queueCommand c lc r.1.1 r.1.2.1 run (latchStat c true (s.penOnTime p || r.1.2.2) run s2)

/-! ### Emission -/

/-- The command that falls due next among those of this frame: the earliest cycle, and of several in one cycle the one
latched last (R345). -/
def dueCommand (q : List EgCmd) : Option EgCmd :=
  q.foldl (fun b x => if x.left ≠ 0 then b else match b with
    | none => some x
    | some y => if y.cycle < x.cycle then b else some x) none

/-- The pins a pin group drives (R335). -/
def groupPins (s : State) (g : Nat) : List Nat :=
  (List.range 192).filter fun p => let w := s.reg .pinOut p; fld w 15 14 = 1 && fld w 11 8 = g

/-- One pin takes its bit of a command, from the next cycle on (R342 to R344). -/
def drivePin (b pulse : Bool) (w p : Nat) (s : State) : State :=
  if pulse && !b then s
  else { s with edge := { s.edge with
    onNext := setBit s.edge.onNext p b
    timers := Store.set s.edge.timers none p (guardOpt pulse (s.frame.time + 1 + 1000 * w)) } }

/-- The pins of a group take the bits of a command (R342, R344). -/
def drivePins (g : Nat) (x : EgCmd) (s : State) : State :=
  (groupPins s g).foldl (fun s p => drivePin (bit (x.words.headD 0) (fld (s.reg .pinOut p) 5 0)) x.pulse x.width p s) s

/-- A pin group emits a command. -/
def emitPins (g : Nat) (x : EgCmd) (s : State) : State :=
  if !(bit (s.reg .pgCfg g) 31) then s
  else strobe (0x20 + g) (drivePins g x (s.setReg .pgLast g 0 ((x.words.headD 0).setWidth 32)))

/-- A Filop Link message with its trailer (R358). -/
def linkMessage (type flags stream : Nat) (epoch : BitVec 48) (payload : List Byte) : List Byte :=
  let m := leBytes 1 type ++ leBytes 1 flags ++ leBytes 2 stream ++ leBytes 6 epoch.toNat ++ leBytes 4 0 ++
    leBytes 2 payload.length ++ payload
  m ++ leBytes 4 (crc32c m)

/-- The ACTUATE message of a command (R377). -/
def actuateMessage (s : State) (l k : Nat) (x : EgCmd) : List Byte :=
  linkMessage 2 0 (s.rf .egAux l 31 16 k) s.frame.epoch
    (leBytes 1 x.action ++ leBytes 1 k ++ leBytes 2 (min x.run 65535) ++ leBytes 4 x.epoch.toNat ++
      x.words.flatMap fun w => leBytes 8 w.toNat)

/-- Whether a lane is a Filop Link lane that is enabled. -/
def State.linkLane (s : State) (l : Nat) : Bool := bit (s.reg .laneCfg l) 31 && !(bit (s.reg .laneCfg l) 30)

/-- A lane channel emits a command: nothing on a 25GBASE-R lane (R380, R381). -/
def emitLane (l k : Nat) (x : EgCmd) (s : State) : State :=
  if s.linkLane l && bit (s.reg .egCfg l k) 31 && !(s.lane l).loading then s.emit (.lane l (actuateMessage s l k x)) else s

/-- Emit one command of a channel. -/
def emitCommand (c : EgCh) (x : EgCmd) (s : State) : State :=
  match c with
  | .pins g => emitPins g x s
  | .lane l k => emitLane l k x s

/-- The command due next is emitted at its cycle, and every other one of that cycle is discarded (R343, R345). -/
def emitDue (c : EgCh) (s : State) : State :=
  let e := s.egress c
  match dueCommand e.queue with
  | none => s
  | some x =>
    let s := advanceTo x.cycle s
    emitCommand c x (s.setEgress c { e with queue := e.queue.filter fun y => !(y.left == 0 && y.cycle == x.cycle) })

/-- A lane channel emits its command due next, those of lower channels that fall due in the same cycle first (R380). -/
def emitLaneDue (l : Fin 32) (k : Fin 4) (s : State) : State :=
  match dueCommand (s.egress (.lane l k)).queue with
  | none => s
  | some x =>
    let low := (List.finRange 4).filter fun j => j < k && match dueCommand (s.egress (.lane l j)).queue with
      | none => false
      | some y => y.cycle == x.cycle
    emitDue (.lane l k) (low.foldl (fun s j => emitDue (.lane l j) s) s)

/-- At the tick that ends a frame a channel emits the command that fell due in it and was not reached, the one latched last
of them; the others come one frame nearer (R343, R345). -/
def egressTick (c : EgCh) (s : State) : State :=
  let e := s.egress c
  if e.queue.isEmpty && !e.latched then s
  else
    let due := e.queue.filter (·.left == 0)
    let rest := (e.queue.filter (·.left != 0)).map fun x => { x with left := x.left - 1 }
    let s := s.setEgress c { e with queue := rest, latched := false }
    match due.getLast? with
    | none => s
    | some x => emitCommand c x s

/-- The halt message of a channel: its safe words under SAFE or HOLD, NONE under PASS, nothing on a lane whose link is down;
its queue is discarded (R379, R382). -/
def haltChannel (c : EgCh) (s : State) : State :=
  let e := s.egress c
  let s := if e.queue.isEmpty then s else s.setEgress c { e with queue := [] }
  match c with
  | .pins _ => s
  | .lane l k =>
    let w := s.regR (egCfgReg c)
    if !(bit w 31) || !(s.linkLane l) || !(bit (s.reg .laneStatus l) 31) then s
    else
      let r := if fld w 30 29 = 2 then ((0, ([] : List Dword)), s)
        else match safeWords c s with
          | (some x, s) => ((2, x), s)
          | (none, s) => ((4, []), s)
      r.2.emit (.lane l (actuateMessage r.2 l k ⟨0, 0, r.1.1, r.1.2, e.run, r.2.frame.epoch, false, 0⟩))

/-- The lane channels at a tick: the messages that fall due then, kept until TIME has gone (R343, R380). -/
def lanesDue (s : State) : List Output × State :=
  let t := ((List.finRange 32).flatMap fun l => (List.finRange 4).map (EgCh.lane l)).foldl (fun s c => egressTick c s) { s with out := [] }
  (t.out, { t with out := s.out })

/-- The TIME messages of a tick (R364). -/
def timeMessages (s : State) : State :=
  (List.range 32).foldl (fun s l =>
    if s.linkLane l && bit (s.reg .laneCfg l) 28 && !(s.lane l).loading then
      s.emit (.lane l (linkMessage 3 1 0 s.frame.epoch (leBytes 8 s.frame.time)))
    else s) s

/-! ### The commands -/

/-- EGRESS_LATCH (R36). -/
def execEgressLatch (ch : EgCh) (s : State) : Out := .next (egressLatch ch s)

/-- EMISSION (R343). -/
def execEmission (g : Fin 16) (s : State) : Out := .next (emitDue (.pins g) s)

/-- ACTUATE (R380). -/
def execActuate (l : Fin 32) (k : Fin 4) (s : State) : Out := .next (emitLaneDue l k s)

end Sys2Proof.Machine
end

