-- ==== Sys2Proof/Machine/Pasture.lean ====
section
/-! DEFINITION. The requests of the droveway at a pasture bank (R216 to R221, R249, R269, R271), and the commands of the mesh and the bank
ports. -/

namespace Sys2Proof.Machine

/-- A request arrives at a bank: not yet out of its port it goes on arriving; closed it is answered there; with 64 requests accepted it stays
in the mesh; else it waits, and where no other arrives in its cycle the port runs until it has been performed (R216 to R220, R257, R269,
R271). -/
def bankArrive (p : Pkt) (waits same : Bool) (s : State) : State :=
  let b := p.dst.toNat
  if 272 ≤ b then s
  else
    match takeLocal b 5 p s with
    | none => s
    | some t =>
      if t.bankShut b then shutOut b p t
      else if 64 ≤ (t.bank b).waiting.length then s
      else
        let k := t.bank b
        let c := if same then k.arrivals else k.arrivals + 1
        let t := t.setBank b { k with arrivals := c, waiting := k.waiting ++ [{ pkt := p, cycle := c, since := t.frame.time }] }
        if waits then t else portUntil b p c portCycles t

/-- A request of one type at a bank; a packet of another type is none of this command's. -/
def bankCmd (net : Net) (type : BitVec 5) (p : Pkt) (waits same : Bool) (s : State) : State :=
  if p.net == net && p.type = type then bankArrive p waits same s else s

/-! ### The commands -/

/-- READ (R249). -/
def execRead (p : Pkt) (waits same : Bool) (s : State) : Out := .next (bankCmd .req 1 p waits same s)

/-- WRITE1 (R249). -/
def execWrite1 (p : Pkt) (waits same : Bool) (s : State) : Out := .next (bankCmd .req 2 p waits same s)

/-- WRITEB (R249). -/
def execWriteb (p : Pkt) (waits same : Bool) (s : State) : Out := .next (bankCmd .data 0x11 p waits same s)

/-- ADD_P (R221). -/
def execAddP (p : Pkt) (waits same : Bool) (s : State) : Out := .next (bankCmd .req 3 p waits same s)

/-- ADD_R (R221). -/
def execAddR (p : Pkt) (waits same : Bool) (s : State) : Out := .next (bankCmd .req 4 p waits same s)

/-- SWAP_P (R221). -/
def execSwapP (p : Pkt) (waits same : Bool) (s : State) : Out := .next (bankCmd .req 5 p waits same s)

/-- SWAP_R (R221). -/
def execSwapR (p : Pkt) (waits same : Bool) (s : State) : Out := .next (bankCmd .req 6 p waits same s)

/-- ROUTE_PACKET (R246). -/
def execRoutePacket (n : Fin 289) (src : RouteFrom) (s : State) : Out := .next (routePacket n src s)

/-- URG_INCREMENT (R260). -/
def execUrgIncrement (n : Fin 289) (net : Net) (port : Fin 7) (vc : BitVec 2) (s : State) : Out :=
  .next (urgIncrement n net port vc s)

/-- ECC_WRITEBACK (R227). -/
def execEccWriteback (b : Fin 272) (s : State) : Out := .next (writebackTurn b s)

/-- PATROL_SCRUB (R230). -/
def execPatrolScrub (b : Fin 272) (s : State) : Out := .next (scrubTurn b s)

/-- BRIDGE_LOST (R274). -/
def execBridgeLost (bridge : Fin 8) (trained : Bool) (s : State) : Out := .next (bridgeLost bridge trained s)

end Sys2Proof.Machine
end

