-- ==== Sys2Proof/Machine/Dma.lean ====
section
/-! DEFINITION. BAR2 and the DMA channels (R228, R236, R237, R390, R397, R406 to R408). -/

namespace Sys2Proof.Machine

/-! ### Words of pasture as the host reaches them -/

/-- A request of the host for a word of the pasture; a secure one goes to the hub (R40, R244, R256). -/
def hostPkt (s : State) (urg a : Nat) : Pkt :=
  { src := 288, dst := BitVec.ofNat 9 (if a < 0x08800000 then a / 0x80000 else 288), unit := 6, vc := 2, urg := BitVec.ofNat 4 urg
    tag := noTag, tep := s.dw.tep, word := BitVec.ofNat 16 (a % 0x80000 / 8) }

/-- A read through BAR2 of a word for the host: under a tag of 7,104 to 7,167, and all ones where it cannot be read; a closed hurdle answers
ISOLATED (R228, R271, R390). -/
def hostWord (b w : Nat) (s : State) : Dword × State :=
  let p := { hostPkt s 4 (wordAddr b w) with type := 1, tag := (freeTag s 7104 64).getD noTag }
  if s.bankShut b then (BitVec.allOnes 64, refusedTrip b p s)
  else match bankRead b w false (portAccess b 6 4 w false portCycles (travel p s)) with
    | (.word v, s) => (v, travel (reply s b p 2 [v]) s)
    | (_, s) => (BitVec.allOnes 64, travel (errorReply s b p 4) s)

/-- The 64-bit words that a byte range touches, read for the host one by one (R390). -/
def hostBytes (a : Nat) : Nat → State → List Byte × State
  | 0, s => ([], s)
  | n + 1, s =>
    let x := if a < 0x08800000 then hostWord (a / 0x80000) (a % 0x80000 / 8) s else (BitVec.allOnes 64, s)
    let r := hostBytes (a + 8) n x.2
    (leBytes 8 x.1.toNat ++ r.1, r.2)

/-- BAR2_READ: whole words are read, the bytes asked for are returned; without a free tag a read of the pasture is held (R253, R390). -/
def bar2Read (a len : Nat) (s : State) : State :=
  if a < 0x08800000 && (freeTag s 7104 64).isNone then s
  else
    let w := a / 8 * 8
    let n := (a + len + 7) / 8 - a / 8
    let r := hostBytes w n s
    r.2.emit (.readData (bytesAt r.1 (a - w) len))

/-- The bytes of one word that a write enables: mask and data, the bytes given as address and value. -/
def wordPart (w : Nat) (l : List (Nat × Byte)) : BitVec 8 × Dword :=
  l.foldl (fun x c =>
    if c.1 / 8 = w then (x.1 ||| (1#8 <<< (c.1 % 8)), x.2 ||| (BitVec.ofNat 64 (c.2.toNat <<< (8 * (c.1 % 8))))) else x) (0, 0)

/-- A write through BAR2 of the enabled bytes of a word: a posted WRITE1; a closed bank drops it with ISOLATED (R216, R236, R271, R390). -/
def hostStore (b w : Nat) (m : BitVec 8) (v : Dword) (s : State) : State :=
  let p := { hostPkt s 4 (wordAddr b w) with type := 2, bmask := m, body := { payload := [v], flits := 2 } }
  if s.bankShut b then refusedTrip b p s
  else
    let s := bankWrite b w m v (portAccess b 6 4 w true portCycles (travel p s))
    if m = 0xFF then s else occupy b s

/-- BAR2_WRITE: each word is a whole-word or a byte-masked write, in the order of addresses; all above the pasture is dropped (R390). -/
def bar2Write (a : Nat) (bytes : List Byte) (s : State) : State :=
  let l := (List.range bytes.length).map fun i => (a + i, bytes.getD i 0)
  let n := if bytes.isEmpty then 0 else (a + bytes.length + 7) / 8 - a / 8
  (List.range n).foldl (fun s k =>
    let w := a / 8 + k
    let x := wordPart w l
    if 272 ≤ w / 65536 then s else hostStore (w / 65536) (w % 65536) x.1 x.2 s) s

/-! ### Planes for a debugger -/

/-- The 512 bytes of a plane as the plane port reads it: row y in bytes 8y to 8y + 7 (R141, R397). -/
def planeBytes (pf a : Nat) (s : State) : List Byte × State :=
  let v := s.plane pf a
  let s := parityFail pf (a % 2048) (s.badRows pf a) true s
  ((List.range 64).flatMap fun y => leBytes 8 (rowOf v y).toNat, s)

/-- Planes of a fold from an address on, which wraps (R91, R397). -/
def planesBytes (pf a : Nat) : Nat → State → List Byte × State
  | 0, s => ([], s)
  | n + 1, s =>
    let x := planeBytes pf (a % 2048) s
    let r := planesBytes pf (a + 1) n x.2
    (x.1 ++ r.1, r.2)

/-- Whether a fold's hurdle turns a debug read away (R397). -/
def debugShut (s : State) (pf : Nat) : Bool := (s.fold pf).hurdle != .opened

/-! ### Descriptors -/

/-- A DMA descriptor, read from its 32 bytes (R406). -/
structure DmaDesc where
  op : Nat
  ctl : Nat
  rsvd : Nat
  length : Nat
  haddr : Nat
  paddr : Nat
  paddr2 : Nat
  operand : Nat

/-- The fields of a descriptor. -/
def dmaDesc (l : List Byte) : DmaDesc :=
  ⟨leAt l 0 1, leAt l 1 1, leAt l 2 1, leAt l 4 4, leAt l 8 8, leAt l 16 4, leAt l 20 4, leAt l 24 8⟩

/-- Whether an operation is an atomic. -/
def DmaDesc.atomic (d : DmaDesc) : Bool := 3 ≤ d.op && d.op ≤ 6

/-- A reserved value, misalignment or overlapping P2P ranges (R406, R408). -/
def DmaDesc.bad (d : DmaDesc) : Bool :=
  7 < d.op || d.ctl / 4 % 4 ≠ 0 || d.rsvd ≠ 0 || d.haddr % 8 ≠ 0 ||
  d.length % 8 ≠ 0 || d.length < 8 || 0x1000000 < d.length ||
  (d.atomic && d.length ≠ 8) || (d.op ≠ 2 && d.paddr2 ≠ 0) || (!d.atomic && d.operand ≠ 0) ||
  (if d.op = 7 then d.length % 512 ≠ 0 || 2 ^ 20 ≤ d.paddr || 272 ≤ d.paddr % 512
   else d.paddr % 8 ≠ 0) ||
  (d.op = 2 && (d.paddr2 % 8 ≠ 0 || (d.paddr < d.paddr2 + d.length && d.paddr2 < d.paddr + d.length)))

/-- A pasture extent past 0x089F_FFFF (R408). -/
def DmaDesc.range (d : DmaDesc) : Bool :=
  d.op ≠ 7 && (0x08A00000 < d.paddr + d.length || (d.op = 2 && 0x08A00000 < d.paddr2 + d.length))

/-- Whether an operation is a posted atomic. -/
def postedOp (op : Nat) : Bool := op == 3 || op == 5

/-! ### Channels -/

/-- A DMA channel. -/
def State.dma (s : State) (c : Nat) : Dma := Store.get s.host.dma {} c

/-- Change a DMA channel. -/
def State.modDma (s : State) (c : Nat) (g : Dma → Dma) : State :=
  { s with host := { s.host with dma := Store.set s.host.dma {} c (g (s.dma c)) } }

/-- How many descriptors lie between HEAD and TAIL. -/
def dmaQueued (s : State) (c : Nat) : Nat :=
  let n := (s.dma c).ring.size
  (s.rf .dmaTail c 11 0 % n + n - s.rf .dmaHead c 11 0 % n) % n

/-- Whether a channel starts its next descriptor: enabled, not halted, in D0, one queued, none failed, and none in progress
before a FENCE (R387, R407, R408); planes of a fold whose pen runs ahead wait (R164). -/
def dmaMayStart (s : State) (c : Nat) (d : DmaDesc) : Bool :=
  let k := s.dma c
  k.ring.on && bit (s.reg .dmaCtrl c) 31 && !(bit (s.reg .dmaStatus c) 31) && !s.inD3 &&
    k.runs.length < dmaQueued s c && k.runs.all (fun r => r.err = 0) && (d.ctl / 2 % 2 = 0 || k.runs.isEmpty) &&
    !(d.op = 7 && runsAhead s (d.paddr % 512))

/-! ### Transfers -/

/-- Change a descriptor in progress. -/
def State.modRun (s : State) (c i : Nat) (g : DmaRun → DmaRun) : State := s.modDma c fun k => { k with runs := k.runs.modify i g }

/-- The request of a descriptor for its word `k` (R249, R406, R407). -/
def dmaRequest (s : State) (r : DmaRun) (k : Nat) : Pkt :=
  let p := hostPkt s r.urg (r.paddr + 8 * k)
  let one := { p.body with payload := [r.operand], flits := 2 }
  match r.op with
  | 0 => { p with type := 2, bmask := 0xFF, body := { ackreq := true, payload := [BitVec.ofNat 64 (leAt r.host (8 * k) 8)], flits := 2 } }
  | 3 => { p with type := 3, body := one }
  | 4 => { p with type := 4, body := one }
  | 5 => { p with type := 5, body := one }
  | 6 => { p with type := 6, body := one }
  | _ => { p with type := 1 }

/-- The descriptor of a channel whose next word request comes first: of those before the first that has failed, none while the channel is
halted (R407, R408; log entry 104). -/
def dmaNext (s : State) (c : Nat) : Option (Nat × DmaRun) :=
  if bit (s.reg .dmaStatus c) 31 then none
  else (((s.dma c).runs.takeWhile fun r => r.err = 0).zipIdx.find? fun x => x.1.sent < x.1.words).map fun x => (x.2, x.1)

/-- A channel issues word requests in ring and address order, as far as its 56 tags go; host bytes that are missing are a host error (R253,
R406 to R408; log entry 113). -/
def dmaIssue (c : Nat) : Nat → State → State
  | 0, s => s
  | n + 1, s =>
    match dmaNext s c with
    | none => s
    | some (i, r) =>
      let k := r.sent
      if r.op = 0 && r.host.length < 8 * k + 8 then s.modRun c i fun x => { x with err := 6 }
      else if postedOp r.op then dmaIssue c n (present (dmaRequest s r k) (s.modRun c i fun x => { x with sent := k + 1 }))
      else
        match freeTag s (6656 + 56 * c) 56 with
        | none => s
        | some t =>
          dmaIssue c n (present { dmaRequest s r k with tag := t }
            (s.modRun c i fun x => { x with sent := k + 1, reqs := x.reqs ++ [{ tag := t.toNat, word := k }] }))

/-- A channel issues what it can. -/
def dmaGo (c : Nat) (s : State) : State := dmaIssue c (64 + (s.dma c).runs.length) s

/-- Bytes for the host at an offset of the transfer; what it does not take is a host error (R407, R408). -/
def toHost (c i off : Nat) (bytes : List Byte) (s : State) : State :=
  match (s.dma c).runs[i]? with
  | none => s
  | some r =>
    let n := min bytes.length (r.taken - off)
    let s := if n = 0 then s else s.emit (.hostWrite (r.haddr + off) (bytes.take n))
    if n < bytes.length && r.err = 0 then s.modRun c i fun x => { x with err := 6 } else s

/-- The descriptor in progress that a tag's request belongs to. -/
def runOf (s : State) (c t : Nat) : Option (Nat × DmaReq) :=
  let l := (s.dma c).runs
  match l.findIdx? fun r => r.reqs.any fun q => q.tag == t with
  | none => none
  | some i => match l[i]? with
    | none => none
    | some r => (r.reqs.find? fun q => q.tag == t).map fun q => (i, q)

/-- The second half of a copied word: its write (R407). -/
def dmaCopy (c i k : Nat) (v : Dword) (s : State) : State :=
  match (s.dma c).runs[i]?, freeTag s (6656 + 56 * c) 56 with
  | some r, some t =>
    if r.err ≠ 0 then s
    else
      let p := hostPkt s r.urg (r.paddr2 + 8 * k)
      present { p with type := 2, bmask := 0xFF, tag := t, body := { ackreq := true, payload := [v], flits := 2 } }
        (s.modRun c i fun x => { x with reqs := x.reqs ++ [{ tag := t.toNat, word := k }] })
  | _, _ => s

/-- A response reaches a DMA channel: what was read, or was the old value, goes to the host or to the second address; then the channel
goes on (R407). -/
def dmaAnswer (t : BitVec 13) (h : Pkt) (data : List Dword) (s : State) : State :=
  let c := (t.toNat - 6656) / 56
  match runOf s c t.toNat with
  | none => s
  | some (i, q) =>
    let op := match (s.dma c).runs[i]? with
      | none => 0
      | some r => r.op
    let s := s.modRun c i fun x => { x with reqs := x.reqs.erase q }
    let v := data.headD 0
    let s := if h.type = 2 then s
      else if op = 2 then dmaCopy c i q.word v s
      else toHost c i (8 * q.word) (leBytes 8 v.toNat) s
    dmaGo c s

/-- PLANE_RD: planes of a fold, or ISOLATED behind a closed hurdle (R397, R407). -/
def dmaPlanes (d : DmaDesc) (c i : Nat) (s : State) : State :=
  let pf := d.paddr % 512
  if debugShut s pf then (isolatedSent pf s).modRun c i fun x => { x with err := 1 }
  else
    let r := planesBytes pf (d.paddr / 512) (d.length / 512) (portTurn pf portCycles s)
    toHost c i 0 r.1 r.2

/-- A descriptor in progress, as it starts: what is malformed or out of range ends at once (R406, R408). -/
def dmaRun (d : DmaDesc) (host : List Byte) (taken : Nat) : DmaRun :=
  let err := if d.bad then 7 else if d.range then 5 else 0
  { err := err, irq := d.ctl % 2 = 1, op := d.op, urg := d.ctl / 16, haddr := d.haddr, paddr := d.paddr, paddr2 := d.paddr2
    operand := BitVec.ofNat 64 d.operand, words := if err ≠ 0 || d.op = 7 then 0 else d.length / 8, host := host, taken := taken }

/-- A descriptor starts on a channel: an operation other than the command's is none of its own; OP values above 0x07 are
reserved and end with BAD_DESC under any command; one that the host does not give whole is a host error (R407, R408). -/
def dmaStart (op c : Nat) (bytes host : List Byte) (taken : Nat) (s : State) : State :=
  let d := dmaDesc bytes
  if !(dmaMayStart s c d) then s
  else if bytes.length < 32 then s.modDma c fun k => { k with runs := k.runs ++ [{ err := 6, irq := false }] }
  else if d.op ≠ op && d.op ≤ 7 then s
  else
    let i := (s.dma c).runs.length
    let r := dmaRun d host taken
    let s := s.modDma c fun k => { k with runs := k.runs ++ [r] }
    if r.err ≠ 0 then s else if d.op = 7 then dmaPlanes d c i s else dmaGo c s

/-- Whether a descriptor has nothing more to issue and nothing outstanding. -/
def DmaRun.ended (r : DmaRun) : Bool := r.reqs.isEmpty && (r.err ≠ 0 || r.words ≤ r.sent)

/-- DMA_COMPLETION: the oldest descriptor in progress, once nothing of it is outstanding, writes its STATUS and advances HEAD; an error
halts the channel and signals its vector whatever IRQ holds (R407, R408). -/
def dmaComplete (c : Nat) (s : State) : State :=
  match (s.dma c).runs with
  | [] => s
  | r :: t =>
    if !r.ended then s
    else
      let g := (s.dma c).ring
      let head := s.rf .dmaHead c 11 0
      let s := s.emit (.hostWrite (g.base + 32 * head + 3) [BitVec.ofNat 8 (128 + r.err)])
      let s := s.setRf .dmaHead c 11 0 ((head + 1) % g.size)
      let s := s.modDma c fun k => { k with runs := t }
      let s := if r.err = 0 then s else s.setReg .dmaStatus c 0 (bit32 true 31 ||| at32 r.err 0)
      if r.err ≠ 0 || r.irq then signal (s.rf .dmaCtrl c 5 0) s else s

/-- An ERROR response to a tagged request of a DMA channel: its first ROUTE_EPOCH is reissued, else the descriptor takes the code (R408). -/
def dmaError (t : BitVec 13) (h : Pkt) (code : Nat) (s : State) : State :=
  let c := (t.toNat - 6656) / 56
  match runOf s c t.toNat with
  | none => s
  | some (i, q) =>
    if code = 2 && !q.again then
      present { h with tep := s.dw.tep, leg := 0 }
        (s.modRun c i fun x => { x with reqs := x.reqs.replace q { q with again := true } })
    else
      dmaGo c (s.modRun c i fun x => { x with reqs := x.reqs.erase q, err := if x.err = 0 then code else x.err })

/-- An ERROR response without a tag: to the oldest posted atomic of a channel that has no error; its first ROUTE_EPOCH is reissued
(R267, R408). -/
def dmaPostedError (c code : Nat) (s : State) : State :=
  match (s.dma c).runs.findIdx? fun r => r.err = 0 && postedOp r.op && 0 < r.sent with
  | none => s
  | some i =>
    match (s.dma c).runs[i]? with
    | none => s
    | some r =>
      if code = 2 && !r.again then present (dmaRequest s r 0) (s.modRun c i fun x => { x with again := true })
      else s.modRun c i fun x => { x with err := code }

/-! ### The commands -/

/-- DMA_H2P (R407). -/
def execDmaH2p (c : Fin 8) (desc host : List Byte) (s : State) : Out := .next (dmaStart 0 c desc host 0 s)

/-- DMA_P2H (R407). -/
def execDmaP2h (c : Fin 8) (desc : List Byte) (taken : Nat) (s : State) : Out := .next (dmaStart 1 c desc [] taken s)

/-- DMA_P2P (R407). -/
def execDmaP2p (c : Fin 8) (desc : List Byte) (s : State) : Out := .next (dmaStart 2 c desc [] 0 s)

/-- DMA_ADD_P (R407). -/
def execDmaAddP (c : Fin 8) (desc : List Byte) (s : State) : Out := .next (dmaStart 3 c desc [] 0 s)

/-- DMA_ADD_R (R407). -/
def execDmaAddR (c : Fin 8) (desc : List Byte) (taken : Nat) (s : State) : Out := .next (dmaStart 4 c desc [] taken s)

/-- DMA_SWAP_P (R407). -/
def execDmaSwapP (c : Fin 8) (desc : List Byte) (s : State) : Out := .next (dmaStart 5 c desc [] 0 s)

/-- DMA_SWAP_R (R407). -/
def execDmaSwapR (c : Fin 8) (desc : List Byte) (taken : Nat) (s : State) : Out := .next (dmaStart 6 c desc [] taken s)

/-- DMA_PLANE_RD (R397, R407). -/
def execDmaPlaneRd (c : Fin 8) (desc : List Byte) (taken : Nat) (s : State) : Out := .next (dmaStart 7 c desc [] taken s)

/-- DMA_COMPLETION (R407, R408). -/
def execDmaCompletion (c : Fin 8) (s : State) : Out := .next (dmaComplete c s)

end Sys2Proof.Machine
end

