-- ==== Sys2Proof/Machine/Resp.lean ====
section
/-! DEFINITION. Responses, errors, invalidations, cancels, epoch notices and the seal of a hurdle (R41, R165, R200, R210 to
R212, R253, R266 to R271). -/

namespace Sys2Proof.Machine

/-- The request that holds a tag. -/
def State.tag (s : State) (t : BitVec 13) : Option HeldTag := Store.get s.dw.tags none t.toNat

/-- Release a tag (R253). -/
def releaseTag (t : BitVec 13) (s : State) : State := { s with dw := { s.dw with tags := Store.set s.dw.tags none t.toNat none } }

/-- Whether the domain a response is for at its node takes it: the fold, the engine, or the hub (R271). -/
def takesResponse (n : Nat) (p : Pkt) (s : State) : Bool :=
  if 288 ≤ n then true
  else if n < 272 then (s.fold n).hurdle == .opened
  else (s.engine (engineOfPkt n p)).hurdle == .opened

/-- The move at the head of a mover's queue whose request holds a tag (R144). -/
def movedBy (s : State) (pf : Nat) (t : BitVec 13) : Option Move :=
  match (s.fold pf).moves with
  | [] => none
  | m :: _ => guardOpt (m.tag == some t) m

/-- An answer to a move to or from another bank: an acknowledged PLANE_OUT is complete, and the rows of a PLANE_IN have come (R144,
R146). -/
def moveAnswer (pf : Nat) (p : Pkt) (s : State) : State :=
  match movedBy s pf p.tag with
  | none => s
  | some m =>
    if m.out then popMove pf s else s.modMove pf fun x => { x with data := (List.range 64).map fun y => p.body.payload.getD y 0 }

/-- The fold whose RAABS counts what a member of a pen absorbs: the leader's, in which alone it is meaningful (R165, R170; log entry
102). -/
def absorber (s : State) (pf : Nat) : Nat :=
  match s.penOfFold pf with
  | none => pf
  | some p => p.leader.getD pf

/-- The plane that a word of a carried buffer of a fold's pen lies in: the valid buffer, or its alternate (R44). -/
def ckPlane (s : State) (pf : Nat) (valid : Bool) (w : Nat) : Option Nat :=
  match s.penOfFold pf with
  | none => none
  | some pen =>
    let base := ckSlot pen.cfg (s.validBuf1 (s.fold pf).lf == valid) pen.cfg.cbase
    if base ≤ w / 64 && w / 64 < base + pen.cfg.carried then some (pen.cfg.cbase + (w / 64 - base)) else none

/-- A spare's checkpoint unit asks for the next plane it has still to restore (R253, R446). -/
def nextRestore (pf : Nat) (s : State) : State :=
  match s.penOfFold pf, s.bankOf (s.fold pf).lf with
  | some pen, some b => sendRestores pf b pen.cfg 1 s
  | _, _ => s

/-- What a spare's checkpoint unit does with an answer: a plane is copied, or a plane it restores has come and the next is asked for (R45,
R46, R215, R446). -/
def ckAnswer (pf : Nat) (h p : Pkt) (s : State) : State :=
  if h.net == .data then
    match ckPlane s pf false h.word.toNat with
    | none => s
    | some a => markCopied pf a s
  else
    match ckPlane s pf true h.word.toNat with
    | none => s
    | some a => nextRestore pf ((List.range 64).foldl (fun s y => writeRow pf a y (p.body.payload.getD y 0) false s) s)

/-- A line fill reaches its engine and is installed; invalidated meanwhile it serves the elements that waited for it then, those of the
descriptor that ran, while that one still runs (R210, R212). -/
def fillData (n : Nat) (h : HeldTag) (p : Pkt) (s : State) : State :=
  let e := engineOfPkt n p
  if h.pkt.len ≠ 7 then s
  else
    let x : CacheLine := ⟨h.pkt.dst.toNat * 8192 + h.pkt.word.toNat / 8, p.body.payload.take 8⟩
    (s.count .cachecnt e 31 16 1).modEng e fun g =>
      if h.cancelled then (if h.waiter.isSome && (g.queue.head?.map (·.id)) = h.waiter then { g with served := g.served ++ [x] } else g)
      else { g with cache := installLine x g.cache }

/-- What the unit that sent a request does with its answer: a plane mover, a checkpoint unit, an engine or a DMA channel (R144 to R146, R165,
R210, R407). -/
def deliverAnswer (n : Nat) (h : HeldTag) (p : Pkt) (s : State) : State :=
  match p.unit.toNat with
  | 0 =>
    if 272 ≤ n then s
    else if h.cancelled then (if p.net == .data then s.count .raabs (absorber s n) 31 0 (p.body.flits - 1) else s)
    else moveAnswer n p s
  | 2 => if 272 ≤ n then s else ckAnswer n h.pkt p s
  | 4 => if p.net == .data && 272 ≤ n && n < 288 then fillData n h p s else s
  | 6 => dmaAnswer p.tag h.pkt p.body.payload s
  | _ => s

/-- A response reaches its requester: behind a hurdle it is absorbed; with the other epoch bit it is absorbed and counted; for a tag no
longer held it does nothing; else the tag is released, and the unit takes the answer (R41, R253, R255, R271). -/
def respond (net : Net) (type : BitVec 5) (p : Pkt) (s : State) : State :=
  let n := p.dst.toNat
  if p.net != net || p.type ≠ type then s
  else
    match takeLocal n 4 p s with
    | none => s
    | some s =>
      if !(takesResponse n p s) then s.count .nodeErrcnt1 n 15 0 1
      else if oldEpoch s p then s.count .stalecnt 0 31 0 1
      else
        match s.tag p.tag with
        | none => s
        | some h => deliverAnswer n h p (releaseTag p.tag s)

/-- The running descriptor of an engine ends with an error at an element: those below it are written first (R200; log entry 91). -/
def engineError (e code elem : Nat) (s : State) : State :=
  match (s.engine e).queue with
  | [] => s
  | x :: _ =>
    match parseDesc x.bytes with
    | none => s
    | some d =>
      let n := reached e d elem s
      let s := match runDesc e d n s with
        | (.done _ _, s) => errEngine e x code n s
        | (.trap exc k, s) => trapEngine e x (trapCause (exc &&& d.ten)) exc k s
        | (.error c k, s) => errEngine e x c k s
      startNext e 8 (dropHead e s)

/-- How a fold's unit handles an ERROR: a move is over and its rows stay, an add is lost, a copy stays incomplete, a plane stays as it was;
all but the copy leave the pen FAULTED (R34, R146, R268). -/
def foldError (n : Nat) (p : Pkt) (s : State) : State :=
  match p.unit.toNat with
  | 0 => (if (movedBy s n p.tag).isSome then popMove n else id) (faultPenOf n s)
  | 1 => faultPenOf n s
  | 2 => if fld (p.body.payload.headD 0) 20 16 = 1 then nextRestore n (faultPenOf n s) else s
  | _ => s

/-- How a unit handles an ERROR (R146, R200, R268, R408). The operand `pos` is the failing element of an engine, and the
channel of a DMA request without a tag. -/
def handleError (p : Pkt) (pos : Nat) (s : State) : State :=
  let n := p.dst.toNat
  let code := p.body.err.toNat
  match p.unit.toNat with
  | 4 => if 272 ≤ n && n < 288 then engineError (engineOfPkt n p) code pos s else s
  | 6 => if p.tag = noTag then (if pos < 8 then dmaPostedError pos code s else s) else s
  | _ => if n < 272 then foldError n p s else s

/-- An ERROR to the request that holds its tag (R268, R408). -/
def errorAnswer (h : HeldTag) (p : Pkt) (pos : Nat) (s : State) : State :=
  let s := releaseTag p.tag s
  if p.unit = 6 then dmaError p.tag h.pkt p.body.err.toNat s
  else if h.cancelled && p.unit = 0 then s
  else handleError p pos s

/-- An ERROR reaches its requester; with a tag it no longer holds it is ignored (R41, R268). -/
def errorOp (p : Pkt) (pos : Nat) (s : State) : State :=
  let n := p.dst.toNat
  if p.net != .rsp || p.type ≠ 6 then s
  else
    match takeLocal n 4 p s with
    | none => s
    | some s =>
      if !(takesResponse n p s) then s.count .nodeErrcnt1 n 15 0 1
      else if oldEpoch s p then s.count .stalecnt 0 31 0 1
      else if p.tag = noTag then handleError p pos s
      else
        match s.tag p.tag with
        | none => s
        | some h => errorAnswer h p pos s

/-- INVAL at one engine: the line is dropped and counted, a fill of it in flight will not be installed (R211, R212). -/
def invalEngine (e line : Nat) (s : State) : State :=
  let s := match cachedLine (s.engine e) line with
    | none => s
    | some _ =>
      (s.count .cachecnt e 15 0 1).modEng e fun g => { g with cache := g.cache.filter fun x => !(x.line == line) }
  { s with dw := { s.dw with tags := s.dw.tags.map fun x => match x.2 with
      | none => x
      | some h =>
        if h.pkt.unit = 4 && !h.cancelled && 4096 + 64 * e ≤ x.1 && x.1 < 4096 + 64 * e + 64 && h.pkt.type = 1 &&
            h.pkt.dst.toNat * 8192 + h.pkt.word.toNat / 8 = line then
          (x.1, some { h with cancelled := true, waiter := (s.engine e).queue.head?.map (·.id) })
        else x } }

/-- An INVAL reaches a stile: each engine slot of its mask takes it, or its hurdle absorbs it (R251, R271). -/
def invalOp (p : Pkt) (s : State) : State :=
  let n := p.dst.toNat
  if p.net != .snp || p.type ≠ 1 || n < 272 || 288 ≤ n then s
  else
    match takeLocal n 4 p s with
    | none => s
    | some s =>
      let line := p.src.toNat * 8192 + p.body.line.toNat
      let first := 8 * ((n - 272) / 4) + (if (n - 272) % 4 = 2 then 4 else 0)
      (List.range 4).foldl (fun s j =>
        if !(bit p.body.mask j) then s
        else if (s.engine (first + j)).hurdle != .opened then s.count .nodeErrcnt1 n 15 0 1
        else invalEngine (first + j) line s) s

/-- A CANCEL reaches a bank: a queued read of its tag is withdrawn (R165, R271). -/
def cancelOp (p : Pkt) (s : State) : State :=
  let b := p.dst.toNat
  if p.net != .snp || p.type ≠ 2 || 272 ≤ b then s
  else
    match takeLocal b 5 p s with
    | none => s
    | some s =>
      if s.bankShut b then s.count .nodeErrcnt1 b 15 0 1
      else s.modBank b fun k =>
        { k with waiting := k.waiting.filter fun x => !(x.pkt.net == .req && x.pkt.type == 1 && x.pkt.tag == p.tag) }

/-- An EPOCH notice reaches a node whose domain opens (R266). -/
def epochNotice (p : Pkt) (low : BitVec 16) (s : State) : State :=
  let n := p.dst.toNat
  if p.net != .snp || p.type ≠ 3 || 288 ≤ n then s
  else
    match takeLocal n 4 p s with
    | none => s
    | some s => { s with dw := { s.dw with notices := Store.set s.dw.notices none n (some (p.fep, p.tep, low)) } }

/-- A domain takes the hub's EPOCH notice before its hurdle opens, if it has none of this frame: it goes at once (R266, R273; log entry
94). -/
def takeNotice (n : Nat) (s : State) : State :=
  match Store.get s.dw.notices none n with
  | some _ => s
  | none =>
    let p : Pkt := { net := .snp, type := 3, src := 288, dst := BitVec.ofNat 9 n, vc := 0, fep := bit s.frame.epoch 0, tep := s.dw.tep }
    let s := travel p s
    { s with dw := { s.dw with notices := Store.set s.dw.notices none n (some (p.fep, p.tep, s.frame.epoch.setWidth 16)) } }

/-- A fold that reaches ON takes its notice, and its hurdle opens (R273). -/
def openFold (pf : Nat) (s : State) : State :=
  (takeNotice pf s).modFold pf fun f => { f with power := .on, hurdle := .opened, goal := none }

/-- A bank that reaches ON takes its notice, and its hurdle opens (R273). -/
def openBank (b : Nat) (s : State) : State := (takeNotice b s).modBank b fun k => { k with power := .on, hurdle := .opened }

/-- An engine that reaches ON takes its notice, and its hurdle opens (R273). -/
def openEng (e : Nat) (s : State) : State := (takeNotice (engineNode e) s).modEng e fun g => { g with power := .on, hurdle := .opened }

/-- What a fold loses when it turns off (R81, R423); the parity of every row agrees from then on (R74), and the PE and
sequencer registers hold 0 (DESIGN CHOICE, log entry 107). -/
def wipeFold (pf : Nat) (s : State) : State :=
  let seed := s.freeCount + 1
  let s := { s with freeCount := seed
                    arr := { s.arr with planes := Store.dropRange s.arr.planes (2048 * pf) (2048 * pf + 2048)
                                        badRows := Store.dropRange s.arr.badRows (2048 * pf) (2048 * pf + 2048)
                                        ispace := Store.dropRange s.arr.ispace (16384 * pf) (16384 * pf + 16384)
                                        dspace := Store.dropRange s.arr.dspace (4096 * pf) (4096 * pf + 4096) } }
  s.modFold pf fun f => { f with seed := seed, fill := .lost seed, pe := {}, seq := {}, moves := [], histo := none, owed := [], goal := none }

/-- The run state of a sequencer that leaves ON is lost (R81). -/
def loseRun (pf : Nat) (s : State) : State :=
  let d := s.draw 1024
  let v := d.1
  d.2.modSeq pf fun q =>
    { q with
      core := { q.core with stack := Vector.ofFn fun i => ⟨v.extractLsb' (25 * i.val) 14, v.extractLsb' (25 * i.val + 14) 11⟩ }
      mr := Vector.ofFn fun i => v.extractLsb' (400 + 64 * i.val) 64
      mrPend := v.extractLsb' 656 4
      tally := v.extractLsb' 660 21
      latch := bit v 681
      red := none, rep := none, load := none, ra := none, cancel := none, stall := false
      lat := { q.lat with mrLatch := Vector.ofFn fun i => v.extractLsb' (682 + 64 * i.val) 64
                          tallyHi := v.extractLsb' 938 16, cycleHi := v.extractLsb' 954 16, epoch1 := v.extractLsb' 970 16
                          epoch2 := v.extractLsb' 986 16, mark := v.extractLsb' 1002 16 } }

/-- A fold whose hurdle is closed takes a lower power state (R81, R270). -/
def dropFold (t : Power) (pf : Nat) (s : State) : State :=
  let s := if t = .off then wipeFold pf s else if (s.fold pf).power = .off then s else loseRun pf s
  s.modFold pf fun f => { f with power := t, hurdle := .closed, goal := none }

/-- A fold's hurdle that closes seals, and the fold takes the state it closes for (R270). -/
def sealFold (pf : Nat) (s : State) : State :=
  let f := s.fold pf
  if f.hurdle != .closing then s
  else match f.goal with
    | none => s.modFold pf fun f => { f with hurdle := .closed }
    | some t => dropFold t pf s

/-- Whether an engine leaves ON once its hurdle has sealed. -/
def Engine.leaves (g : Engine) : Bool := g.power == .on && g.recorded != .on

/-- An engine's hurdle that closes seals, and the engine takes its recorded state: what it held is lost (R173, R270). -/
def sealEng (e : Nat) (s : State) : State :=
  if (s.engine e).hurdle != .closing then s
  else s.modEng e fun g =>
    if g.leaves then { g with hurdle := .closed, power := g.recorded, queue := [], cache := [], served := [] } else { g with hurdle := .closed }

/-- HURDLE_SEAL: a closing hurdle answers its open entries and closes, and the domain takes the lower state it closes for
(R270). -/
def hurdleSeal (d : Dom) (s : State) : State :=
  match d with
  | .fold pf => sealFold pf s
  | .bank b => if (s.bank b).hurdle != .closing then s else sealBank b s
  | .engine e => sealEng e s

/-! ### The commands -/

/-- ACK (R250, R253). -/
def execAck (p : Pkt) (s : State) : Out := .next (respond .rsp 1 p s)

/-- RDATA (R250, R253). -/
def execRdata (p : Pkt) (s : State) : Out := .next (respond .rsp 2 p s)

/-- RDATAB (R249, R253). -/
def execRdatab (p : Pkt) (s : State) : Out := .next (respond .data 0x12 p s)

/-- OLDVAL (R250, R253). -/
def execOldval (p : Pkt) (s : State) : Out := .next (respond .rsp 3 p s)

/-- REGDATA (R250, R253). -/
def execRegdata (p : Pkt) (s : State) : Out := .next (respond .rsp 5 p s)

/-- ERROR (R268). -/
def execError (p : Pkt) (pos : Nat) (s : State) : Out := .next (errorOp p pos s)

/-- INVAL (R211). -/
def execInval (p : Pkt) (s : State) : Out := .next (invalOp p s)

/-- CANCEL (R165). -/
def execCancel (p : Pkt) (s : State) : Out := .next (cancelOp p s)

/-- EPOCH_NOTICE (R266). -/
def execEpochNotice (p : Pkt) (low : BitVec 16) (s : State) : Out := .next (epochNotice p low s)

/-- HURDLE_SEAL (R270). -/
def execHurdleSeal (d : Dom) (s : State) : Out := .next (hurdleSeal d s)

end Sys2Proof.Machine
end

