-- ==== Sys2Proof/Machine/RegFile.lean ====
section
/-! DEFINITION. BAR0: what a read of a register returns, what a write does, the open write group (R6 to R12, R86, R277, R320 to
R322, R388, R389, R415, R432). -/

namespace Sys2Proof.Machine

/-! ### Codes -/

/-- EWMODE and NSMODE. -/
def edgeModeCode : EdgeMode → Nat
  | .fill => 0 | .wrap => 1 | .skew => 2

/-- FOLD[PF].ID.ROLE. -/
def roleCode : Role → Nat
  | .active => 0 | .spare => 1 | .isolated => 2

/-- CFG.STATUS.ACT. -/
def actCode : Act → Nat
  | .idle => 0 | .pending => 1 | .loading => 2 | .ready => 3 | .failed => 4

/-- CFG.SLOT.STATE. -/
def slotCode : SlotState → Nat
  | .empty => 0 | .loading => 1 | .verified => 2 | .stored => 3

/-- UPD.STATUS.STATE. -/
def updCode : UpdSt → Nat
  | .idle => 0 | .receiving => 1 | .verified => 2 | .scheduled => 3 | .confirming => 4

/-! ### Computed registers -/

/-- FOLD[PF].ID: LF of a fold that holds no logical fold reads 0. -/
def readFoldId (s : State) (pf : Nat) : Word :=
  at32 (dieOf pf) 24 ||| at32 (if (s.fold pf).role = .active then (s.fold pf).lf else 0) 16 ||| at32 (roleCode (s.fold pf).role) 9 ||| at32 pf 0

/-- Whether a fold leads its pen: an ISOLATED or LOST member never does (R65). -/
def State.leads (s : State) (p : Pen) (pf : Nat) : Bool :=
  p.leader == some pf && (s.fold pf).role == .active && !(s.fold pf).lost

/-- FOLD[PF].PEN: zero for a fold that no pen has. -/
def readFoldPen (s : State) (pf : Nat) : Word :=
  match s.penOfFold pf with
  | none => 0
  | some p => bit32 (s.leads p pf) 31 ||| at32 p.cfg.first 23 ||| at32 p.cfg.count 14 ||| at32 p.cfg.width 5

/-- A long-link source: its valid bit and number. -/
def linkField (l : Option Nat) (lo : Nat) : Word :=
  match l with
  | none => 0
  | some lf => bit32 true (lo + 8) ||| at32 lf lo

/-- FOLD[PF].ROUTE. -/
def readFoldRoute (s : State) (pf : Nat) : Word :=
  let f := s.fold pf
  let m := match s.penOfFold pf with
    | none => 0
    | some p => at32 (edgeModeCode p.cfg.ns) 2 ||| at32 (edgeModeCode p.cfg.ew) 0
  linkField f.lesrc 17 ||| linkField f.lnsrc 8 ||| m

/-- The registers of chapter 05 hold something in the fold that leads its pen, and read 0 in every other (R170). -/
def ledOnly (s : State) (pf : Nat) (w : Word) : Word :=
  match s.penOfFold pf with
  | none => 0
  | some p => if s.leads p pf then w else 0

/-- FOLD[PF].REDSTAT. -/
def readRedstat (s : State) (pf : Nat) : Word :=
  let q := s.seq pf
  ledOnly s pf (bit32 q.latch 31 ||| bit32 q.red.isSome 30 ||| at32 q.tally.toNat 0)

/-- BANK[b].STATUS. -/
def readBankStatus (s : State) (b : Nat) : Word :=
  let k := s.bank b
  at32 (powerCode k.power) 30 ||| bit32 k.failed 29 ||| bit32 (k.hurdle == .closed) 28 |||
    at32 (((List.range 4).map fun a => (Config.fused b a).val).sum) 4 ||| at32 k.soft.length 0

/-- ENG[e].STATUS. -/
def readEngStatus (s : State) (e : Nat) : Word :=
  let g := s.engine e
  at32 (powerCode g.power) 30 ||| bit32 (!g.queue.isEmpty) 8 ||| at32 g.queue.length 0

/-- NODE[N].ID: kind, die, global column and row, index (R242, R244). -/
def readNodeId (n : Nat) : Word :=
  let p := placeOf n
  bit32 (272 ≤ n) 30 ||| at32 p.die 28 ||| at32 (9 * (p.die % 2) + p.u) 23 ||| at32 (8 * (p.die / 2) + p.v) 19 ||| at32 n 0

/-- The hurdles of a node, two bits each. -/
def hurdleStates (s : State) (n : Nat) : Nat :=
  if n < 272 then hurdleCode (s.fold n).hurdle + 4 * hurdleCode (s.bank n).hurdle + 0xF0
  else if (n - 272) % 4 = 0 || (n - 272) % 4 = 3 then 0xFF
  else
    let e := 8 * ((n - 272) / 4) + (if (n - 272) % 4 = 2 then 4 else 0)
    (List.range 4).foldl (fun a k => a + hurdleCode (s.engine (e + k)).hurdle * 4 ^ k) 0

/-- NODE[N].STATUS. -/
def readNodeStatus (s : State) (n : Nat) : Word :=
  let lost := 272 ≤ n && bit s.dw.lost (bridgeOf (placeOf n).die ((n - 272) % 4))
  bit32 s.dw.tep 31 ||| bit32 s.dw.drain 30 ||| at32 (s.dw.set % 16) 26 ||| bit32 lost 24 ||| at32 (hurdleStates s n) 0

/-- FRAME.STATE. -/
def readFrameState (s : State) : Word :=
  bit32 s.inGuard 5 ||| (match s.inStage with
    | none => 0
    | some k => bit32 true 4 ||| at32 (k % 16) 0)

/-- CFG.STATUS; PARTIAL is stored. -/
def readCfgStatus (s : State) : Word :=
  let l := s.ldr
  (match l.session with
   | none => 0
   | some x => at32 (if x.1 then 2 else 1) 30 ||| at32 x.2.1.val 28) |||
    at32 (actCode l.act) 25 ||| bit32 (bit (s.reg .cfgStatus) 24) 24 ||| at32 l.actSlot.val 22 ||| bit32 l.inForce.isSome 21

/-- CFG.SLOT[i]. -/
def readCfgSlot (s : State) (i : Nat) : Word :=
  if h : i < 3 then
    let x := s.ldr.slots[i]
    at32 (slotCode x.st) 30 ||| bit32 x.partialImage 29 ||| bit32 x.enc 28 ||| at32 (x.length % 2 ^ 24) 0
  else 0

/-- CFG.DIGEST[i]. -/
def readDigest (s : State) (i : Nat) : Word :=
  match s.ldr.inForce with
  | none => 0
  | some f => BitVec.ofNat 32 (leAt f.digest (4 * i) 4)

/-- WG.STATUS; LAST and CHECK are stored. -/
def readWgStatus (s : State) : Word :=
  bit32 s.ldr.armed.isSome 31 ||| bit32 s.ldr.wgOver 30 ||| at32 (s.rf .wgStatus 0 29 24) 24 ||| at32 s.ldr.wgOpen.length 0

/-- WG.SEQ; LASTNO is stored. -/
def readWgSeq (s : State) : Word :=
  (match s.ldr.armed with
   | none => 0
   | some g => at32 g.1 16) ||| at32 (s.rf .wgSeq 0 15 0) 0

/-- IOBANK[b].STATUS; VOLT is stored. -/
def readIobank (s : State) (b : Nat) : Word :=
  let safe := (List.range 12).foldl (fun (w : Word) j => if s.pinIsSafe (12 * b + j) then w ||| bit32 true (12 + j) else w) 0
  bit32 (bit (s.reg .iobank b) 31) 31 ||| bit32 (s.regionLoading b) 30 ||| safe ||| at32 (fld s.edge.inp (12 * b + 11) (12 * b)) 0

/-- An egress channel's STAT; all but QDEPTH is stored. -/
def readEgStat (s : State) (c : EgCh) : Word :=
  let v := s.regR (egStatReg c)
  setFld v 8 0 (s.egress c).queue.length

/-- What a lane's PTP clock gains in an ACLK cycle, in units of 2^-32 ns (R369). -/
def ptpRate (s : State) (l : Nat) : Nat :=
  let rate : Int := 2 ^ 32 + signedOf 32 (s.reg .ptprate l).toNat
  rate.toNat

/-- A lane's PTP clock now, in units of 2^-32 ns (R369). -/
def ptpNow (s : State) (l : Nat) : Nat :=
  let x := s.lane l
  (x.ptp + (s.frame.time - x.ptpAt) * ptpRate s l) % 2 ^ 96

/-- PTP time in whole nanoseconds. -/
def ptpTime (s : State) (l : Nat) : Nat := ptpNow s l / 2 ^ 32

/-- HUB.BOOTSTAT.PHASE (R411); the autoload phase runs while a choice is tried. -/
def phaseCode (s : State) : Nat :=
  match s.phase with
  | .standby => 4
  | .selftest => 4
  | .ready => if s.ldr.actAuto = 0 then 6 else 5
  | _ => 3

/-- HUB.BOOTSTAT; HOLDUP, AUTOLOADED and ASLOT are stored. -/
def readBootstat (s : State) : Word :=
  at32 s.mode.code 29 ||| at32 (phaseCode s) 26 ||| at32 (s.rf .bootstat 0 25 22) 22

/-- The step of R443 in progress: steps 2 to 4 until they end, then step 5 (log entry 48). -/
def Subst.step (t : Nat) (x : Subst) : Nat := 2 + x.ends.toList.countP fun e => x.since + e ≤ t

/-- HUB.SUBST: the step in progress, which is step 1 while a fold that has failed its check awaits the hub's decision and no substitution
runs (R443; log entry 48); DONE is stored. -/
def readHubSubst (s : State) : Word :=
  (match s.hub.subst, s.arr.failed with
   | some x, _ => bit32 true 31 ||| at32 (x.step s.frame.time) 28 ||| at32 x.pf 16
   | none, pf :: _ => bit32 true 31 ||| at32 1 28 ||| at32 pf 16
   | none, [] => 0) |||
    at32 (min s.hub.waiting.length 255) 8 ||| at32 (s.rf .hubSubst 0 7 0) 0

/-- Whether the tamper condition is present (R466). -/
def State.tampered (s : State) : Bool := s.hub.lid || s.hub.mesh

/-- Seconds left in the presence window, whole (R456). -/
def presRemain (s : State) : Nat :=
  if s.hub.pres.source = 0 then 0 else (s.hub.pres.ends - s.frame.time + 999999999) / 1000000000

/-- PRES.STATUS. -/
def readPresStatus (s : State) : Word :=
  let p := s.hub.pres
  bit32 (p.source ≠ 0) 31 ||| at32 p.source 29 ||| bit32 (p.keySince.isSome || p.pinSince.isSome) 28 ||| at32 (presRemain s) 0

/-- LC.STATUS. -/
def readLcStatus (s : State) : Word :=
  let f := s.hub.fuses
  at32 f.lc 30 ||| at32 f.returns 26 ||| at32 f.tampers 21 ||| bit32 s.tampered 20 ||| bit32 s.hub.lid 19 |||
    bit32 s.hub.mesh 18 ||| at32 f.ver 0

/-- The owner of the update session: 0 none, 1 host, 2 service port. -/
def updOwner (s : State) : Nat :=
  match s.hub.fw.session with
  | none => 0
  | some x => if x.svc then 2 else 1

/-- Chunks of the update session held. -/
def updHeld (s : State) : Nat :=
  match s.hub.fw.session with
  | none => 0
  | some x => x.chunks.length

/-- UPD.STATUS. -/
def readUpdStatus (s : State) : Word :=
  at32 (updCode s.hub.fw.st) 29 ||| at32 (updOwner s) 27 ||| at32 (updHeld s) 0

/-- Seconds since entry to READY, counted in CONFIRMING (R480). -/
def healthSeconds (s : State) : Nat :=
  match s.hub.fw.readyAt with
  | none => 0
  | some t => if s.hub.fw.st = .confirming then (s.frame.time - t) / 1000000000 else 0

/-- UPD.HEALTH; VERDICT is stored. -/
def readUpdHealth (s : State) : Word :=
  at32 (s.rf .updHealth 0 31 30) 30 ||| at32 (min (healthSeconds s) (2 ^ 18 - 1)) 12

/-- SET.STATUS. -/
def readSetStatus (s : State) : Word :=
  let x := s.hub.settings
  at32 x.slot.val 31 ||| bit32 x.unreadable 30 ||| bit32 x.migrated 29 ||| at32 x.version 0

/-- FRAME.CYCLE: 0 until the first tick (R17). -/
def readCycle (s : State) : Word :=
  if s.frame.ticked then bit32 s.frame.hold 31 ||| at32 s.frame.cycle 0 else 0

/-- What a register reads. -/
def readReg (s : State) (r : Reg) : Word :=
  let v := s.regR r
  match r.name with
  | .hosttick => 0
  | .epochLo => s.frame.epoch.setWidth 32
  | .epochHi => s.frame.epochHiLatch.setWidth 32
  | .cycle => readCycle s
  | .frameState => readFrameState s
  | .foldId => readFoldId s r.i
  | .foldPen => readFoldPen s r.i
  | .foldRoute => readFoldRoute s r.i
  | .foldStatus => readFoldStatus s r.i
  | .seqstat => readSeqstat s r.i
  | .redstat => readRedstat s r.i
  | .racfg => ledOnly s r.i (s.regR r)
  | .racnt => ledOnly s r.i (s.regR r)
  | .raabs => ledOnly s r.i (s.regR r)
  | .engId => at32 (r.i / 8) 24 ||| at32 r.i 0
  | .engStatus => readEngStatus s r.i
  | .bankStatus => readBankStatus s r.i
  | .nodeId => readNodeId r.i
  | .nodeStatus => readNodeStatus s r.i
  | .slotwait => BitVec.ofNat 32 (min 0xFFFFFFFF (v.toNat + waitedNow s r.i))
  | .secpast => (wipeDue s).regR r
  | .cfgStatus => readCfgStatus s
  | .cfgSlot => readCfgSlot s r.i
  | .cfgDigest => readDigest s r.i
  | .wgCtrl => 0
  | .wgStatus => readWgStatus s
  | .wgSeq => readWgSeq s
  | .iobank => readIobank s r.i
  | .pgStat => if h : r.i < 16 then readEgStat s (.pins ⟨r.i, h⟩) else v
  | .egStat => if h : r.i < 32 then if k : r.j < 4 then readEgStat s (.lane ⟨r.i, h⟩ ⟨r.j, k⟩) else v else v
  | .laneStatus => setBit v 28 ((s.lane r.i).ingLoad || (s.lane r.i).loading)
  | .ingstat => setFld v 31 16 (s.lane r.i).ingCount.toNat
  | .timerxLo => (s.lane r.i).timeRx.setWidth 32
  | .timerxHi => (s.lane r.i).timeHi
  | .ptptimeLo => BitVec.ofNat 32 (ptpTime s r.i)
  | .ptptimeHi => (s.lane r.i).ptpHi
  | .doorbell => 0
  | .mboxStatus => setBit v 31 s.host.mbox.busy
  | .clkstat => setBit (setBit (setBit v 3 true) 4 (!s.hub.pres.pinHeld)) 5 s.edge.tickIn
  | .dmaStatus => setBit v 30 (!(s.dma r.i).runs.isEmpty)
  | .bootstat => readBootstat s
  | .hubSubst => readHubSubst s
  | .cairnStatus => setFld v 27 16 s.cairn.pinned
  | .cairnNewest => BitVec.ofNat 32 s.cairn.newest
  | .cairnOldest => BitVec.ofNat 32 s.cairn.oldest
  | .presStatus => readPresStatus s
  | .lcStatus => readLcStatus s
  | .updStatus => readUpdStatus s
  | .updHealth => readUpdHealth s
  | .setStatus => readSetStatus s
  | .setGen => BitVec.ofNat 32 (if s.hub.settings.unreadable then 0 else s.hub.settings.gen)
  | _ => v

/-! ### Reads -/

/-- Whether an address lies in a block that does not answer from STANDBY until READY, nor in OFF and HALTED (R415, R432). -/
def blockHidden (s : State) (a : Nat) : Bool :=
  (match s.mode with
   | .ready => false
   | .run => false
   | .shed => false
   | _ => true) &&
  ((0x100000 ≤ a && a < 0x220000) || (0x300000 ≤ a && a < 0x410000) || (0x500000 ≤ a && a < 0x580000) ||
    (0x600000 ≤ a && a < 0x640000) || (0x700000 ≤ a && a < 0x710000))

/-- What a read changes: the latches of the halves of EPOCH, TIMERX and PTPTIME (R17, R363, R369). -/
def readEffect (r : Reg) (s : State) : State :=
  match r.name with
  | .epochLo => { s with frame := { s.frame with epochHiLatch := s.frame.epoch.extractLsb' 32 16 } }
  | .timerxLo => s.modLane r.i fun x => { x with timeHi := x.timeRx.extractLsb' 32 32 }
  | .ptptimeLo => let t := ptpTime s r.i; s.modLane r.i fun x => { x with ptpHi := BitVec.ofNat 32 (t / 2 ^ 32) }
  | _ => s

/-- An aligned 32-bit read of BAR0 (R6, R389, R415). -/
def busRead (a : Nat) (s : State) : Word × State :=
  if blockHidden s a || a % 4 ≠ 0 then (BitVec.allOnes 32, s)
  else match mappedReg a with
    | none => (BitVec.allOnes 32, s)
    | some r => (readReg s r, readEffect r s)

/-! ### Writes -/

/-- Whether a PRBMUX value selects an existing source (R330, R353); which values outside the table are reserved is the
model's choice (DESIGN CHOICE, log entry 128). -/
def prbmuxOk (w : Word) : Bool :=
  match fld w 31 29 with
  | 0 => true
  | 1 => true
  | 2 => fld w 19 8 = 0 && specialOk (fld w 7 0)
  | 3 => true
  | 4 => fld w 11 9 ≤ 5
  | 5 => true
  | _ => false

/-- Whether a value written to a register holds no reserved value (R9). -/
def valueOk (r : Reg) (w : Word) : Bool :=
  match r.name with
  | .tickcfg => fld w 2 0 ≤ 4 && fld w 5 4 ≤ 1
  | .period => 16000 ≤ fld w 30 0 && fld w 30 0 ≤ 2 ^ 30
  | .faultcfg => fld w 3 0 ≠ 0
  | .probectl => fld w 31 30 ≠ 3
  | .wgCtrl => fld w 1 0 ≠ 3
  | .seg => (!(bit w 31) && fld w 11 0 = 0) || driverOk r.i r.j (fld w 11 0)
  | .pinCfg => fld w 7 6 ≠ 3 && fld w 4 3 ≠ 3 && fld w 2 0 ≤ 3
  | .pinOut => fld w 15 14 ≠ 3 && (fld w 15 14 ≠ 1 || fld w 7 6 = 0)
  | .pgCfg => fld w 30 29 ≠ 3 && fld w 28 21 ≠ 0
  | .egCfg => fld w 30 29 ≠ 3 && fld w 28 21 ≠ 0
  | .pgWidth => fld w 15 0 ≠ 0
  | .encCfg => fld w 30 29 ≠ 3 && fld w 15 0 ≠ 0
  | .ticksel => fld w 1 0 ≠ 3
  | .syncphy => fld w 4 0 ≤ 24
  | .prbmux => prbmuxOk w
  | .laneCfg => if bit w 30 then !(bit w 28) else !(bit w 29)
  | .ingcfg => fld w 26 19 ≠ 0 && 8 ≤ fld w 18 14 && fld w 18 14 ≤ 16 && fld w 13 9 ≠ 0 && fld w 13 9 ≤ fld w 18 14
  | .inggeom => fld w 31 16 ≤ 16383 && fld w 15 0 ≠ 0 && fld w 15 0 ≤ 16384
  | .ingrows => fld w 31 16 ≤ 16383 && fld w 15 0 ≠ 0 && fld w 15 0 ≤ 16384
  | .rpaymax => fld w 16 0 ≤ 65536
  | .ptprate => (signedOf 32 w.toNat).natAbs ≤ 2147483
  | .ringcfg => fld w 3 0 ≤ 8
  | .dmaRingcfg => fld w 3 0 ≤ 8
  | .rxcfg => fld w 11 8 ≤ 8
  | .txcfg => fld w 11 8 ≤ 8
  | _ => true

/-- Whether a register's block runs, for a field of class WX (R8). -/
def wxRuns (s : State) (r : Reg) : Bool := s.regionRuns (regionOf r)

/-- Replace the bits of a mask in a register. -/
def putBits (r : Reg) (m w : Word) (s : State) : State :=
  s.setReg r.name r.i r.j ((s.regR r &&& ~~~m) ||| (w &&& m))

/-- Put a record into a list of them, in place of one for the same register (R320). -/
def putRec (x : RegRec) : List RegRec → List RegRec
  | [] => [x]
  | y :: t => if y.1 = x.1 then x :: t else y :: putRec x t

/-- A WS write joins the open group, which holds 1,024 registers (R320, R321). -/
def joinGroup (x : RegRec) (s : State) : Bool × State :=
  let l := putRec x s.ldr.wgOpen
  if 1024 < l.length then (false, writeReject { s with ldr := { s.ldr with wgOver := true } })
  else (true, { s with ldr := { s.ldr with wgOpen := l } })

/-- The number after a group's (R324). -/
def nextGroup (n : Nat) : Nat := if n = 65535 then 1 else n + 1

/-- Arm the open group: it takes the next number, and a new group opens (R12, R322, R324). -/
def armGroup (s : State) : State :=
  let l := s.ldr
  { s with ldr := { l with armed := some (l.wgNext, l.wgOpen, l.wgOver), armedAt := s.frame.time
                           wgNext := nextGroup l.wgNext, wgOpen := [], wgOver := false } }

/-- Empty the open group (R322). -/
def discardGroup (s : State) : State := { s with ldr := { s.ldr with wgOpen := [], wgOver := false } }

/-- A write of WG.CTRL: a further arm while one is armed is rejected (R322). -/
def writeWgCtrl (w : Word) (s : State) : Bool × State :=
  if bit w 0 then if s.ldr.armed.isSome then (false, writeReject s) else (true, armGroup s)
  else if bit w 1 then (true, discardGroup s) else (true, s)

/-- A 64-bit address held in two registers. -/
def addr64 (lo hi : Word) : Nat := lo.toNat + 2 ^ 32 * hi.toNat

/-- A write of the doorbell: a command is accepted, or one is running and the write is turned away (R399). -/
def ringDoorbell (w : Word) (s : State) : Bool × State :=
  if !(bit w 0) then (true, s)
  else if s.host.mbox.busy then (false, writeReject s)
  else
    let hdr := (List.range 4).flatMap fun i => leBytes 4 (s.reg .cmdhdr i).toNat
    let m : Mbox := { busy := true, hdr := hdr, rpay := addr64 (s.reg .rpayLo) (s.reg .rpayHi)
                      rmax := s.rf .rpaymax 0 16 0, since := s.frame.time, after := s.host.svcHeld.isSome }
    (true, { s.setReg .mboxStatus 0 0 (at32 (leAt hdr 2 2) 0) with host := { s.host with mbox := m } })

/-- Enabling the event ring captures it and starts it afresh (R404). -/
def enableRing (w : Word) (s : State) : State :=
  let old := bit (s.reg .ringcfg) 31
  let s := s.setReg .ringcfg 0 0 (w &&& 0x8000000F#32)
  if bit w 31 && !old then
    let s := (s.setReg .ringhead 0 0 0).setReg .ringtail 0 0 0
    { s with evt := { s.evt with base := addr64 (s.reg .ringbaseLo) (s.reg .ringbaseHi), size := 16 * 2 ^ fld w 3 0, phase := true } }
  else s

/-- A write of DMA[c].CTRL: enabling captures the ring, disabling lets what has started finish, RESUME clears HALTED and continues (R407,
R408). -/
def writeDmaCtrl (c : Nat) (w : Word) (s : State) : State :=
  let old := bit (s.reg .dmaCtrl c) 31
  let s := s.setReg .dmaCtrl c 0 (w &&& 0x8000003F#32)
  let s := if bit w 30 then dmaGo c (s.setRf .dmaStatus c 31 31 0) else s
  if bit w 31 && !old then
    s.modDma c fun k => { k with ring :=
      ⟨true, addr64 (s.reg .dmaBaseLo c) (s.reg .dmaBaseHi c), 16 * 2 ^ s.rf .dmaRingcfg c 3 0⟩ }
  else if bit w 31 then s
  else s.modDma c fun k => { k with ring := { k.ring with on := false } }

/-- The rings of a lane. -/
def State.nic (s : State) (l : Nat) : Nic := Store.get s.host.nic {} l

/-- Change the rings of a lane. -/
def State.modNic (s : State) (l : Nat) (g : Nic → Nic) : State :=
  { s with host := { s.host with nic := Store.set s.host.nic {} l (g (s.nic l)) } }

/-- A write of NIC[l].RXCFG or TXCFG: enabling captures the ring and sets HEAD and TAIL to 0 (R409). -/
def writeNicCfg (tx : Bool) (l : Nat) (w : Word) (s : State) : State :=
  let n : RegName := if tx then .txcfg else .rxcfg
  let old := bit (s.reg n l) 31
  let s := s.setReg n l 0 (w &&& 0x80000F3F#32)
  let base := if tx then addr64 (s.reg .txbaseLo l) (s.reg .txbaseHi l) else addr64 (s.reg .rxbaseLo l) (s.reg .rxbaseHi l)
  let g : Ring := ⟨true, base, 16 * 2 ^ fld w 11 8⟩
  let put := fun (g : Ring → Ring) (s : State) =>
    s.modNic l fun x => if tx then { x with tx := g x.tx } else { x with rx := g x.rx }
  if bit w 31 && !old then
    let s := if tx then (s.setReg .txhead l 0 0).setReg .txtail l 0 0 else (s.setReg .rxhead l 0 0).setReg .rxtail l 0 0
    put (fun _ => g) s
  else if bit w 31 then s
  else put (fun x => { x with on := false }) s

/-- A write of a vector's control: unmasking a vector whose PBA bit is set sends its message, in D3hot not before the return to D0
(R387, R405). -/
def writeMsixCtrl (v : Nat) (w : Word) (s : State) : State :=
  let s := s.setReg .msixCtrl v 0 (w &&& 1#32)
  if !(bit w 0) && bit (s.reg .msixPba (v / 32)) (v % 32) && !s.inD3 then signal v (setPba v false s) else s

/-- A write of CAIRN.ACK rearms CAIRN_NEAR_WRAP (R454). -/
def writeCairnAck (w : Word) (s : State) : State :=
  let s := s.setReg .cairnAck 0 0 w
  nearWrap { s with cairn := { s.cairn with disarmed := false } }

/-- A write of CAIRN.WINSEL copies the record it names into the window (R449). -/
def writeCairnWinsel (w : Word) (s : State) : State :=
  let s := s.setReg .cairnWinsel 0 0 w
  let r := s.cairn.recs.find? (·.index == w.toNat)
  let s := s.setReg .cairnWinstat 0 0 (bit32 r.isSome 31)
  let b := match r with
    | none => []
    | some x => x.bytes
  (List.range 16).foldl (fun s i => s.setReg .cairnWin i 0 (BitVec.ofNat 32 (leAt b (4 * i) 4))) s

/-- A write of PROBECTL clears the count, the status and the trace ring (R277). -/
def writeProbectl (n : Nat) (w : Word) (s : State) : State :=
  let s := ((s.setReg .probectl n 0 (w &&& 0xFFE00000#32)).setReg .probecnt n 0 0).setReg .probestat n 0 0
  let a := Reg.addr ⟨.nodeTrace, n, 0⟩
  { s with regs := Store.dropRange s.regs a (a + 1024) }

/-- Take the PTP clock of a lane as it stands now as its new base (R369). -/
def rebasePtp (l : Nat) (s : State) : State :=
  let t := ptpNow s l
  s.modLane l fun x => { x with ptp := t, ptpAt := s.frame.time }

/-- A write of PTPSTEP_LO adds the signed offset to the clock (R369). -/
def writePtpStep (l : Nat) (w : Word) (s : State) : State :=
  let s := s.setReg .ptpstepLo l 0 w
  let d := signedOf 64 (addr64 w (s.reg .ptpstepHi l))
  let t : Int := (ptpNow s l : Int) + d * 2 ^ 32
  s.modLane l fun x => { x with ptp := wrapTo 96 t, ptpAt := s.frame.time }

/-- A write by access class: writable fields take their bits, and a 1 clears a bit that the hardware has not set in this cycle (R7, R11). -/
def clearSet (r : Reg) (w : Word) (s : State) : State :=
  let imm := r.name.row.maskOf fun c => c == .rw || c == .wl || c == .wx
  let w1c := r.name.row.maskOf (· == .w1c)
  s.setReg r.name r.i r.j ((s.regR r &&& ~~~imm &&& ~~~(w &&& w1c &&& ~~~s.setThisCycle r.name r.i)) ||| (w &&& imm))

/-- A write that has passed R9 takes effect, or is turned away by a rule of its register. -/
def applyWrite (r : Reg) (w : Word) (s : State) : Bool × State :=
  let ws := r.name.row.maskOf (· == .ws)
  match r.name with
  | .hosttick => (true, if bit w 0 then tickRequest 3 s else s)
  | .wgCtrl => writeWgCtrl w s
  | .seg => (true, writeSeg r.i r.j (w &&& 0x80000FFF#32) s)
  | .doorbell => ringDoorbell w s
  | .ringcfg => (true, enableRing w s)
  | .ringbaseLo => (true, s.setReg .ringbaseLo 0 0 (w &&& 0xFFFFFFF0#32))
  | .dmaBaseLo => (true, s.setReg .dmaBaseLo r.i 0 (w &&& 0xFFFFFFE0#32))
  | .rxbaseLo => (true, s.setReg .rxbaseLo r.i 0 (w &&& 0xFFFFFFE0#32))
  | .txbaseLo => (true, s.setReg .txbaseLo r.i 0 (w &&& 0xFFFFFFE0#32))
  | .dmaCtrl => (true, writeDmaCtrl r.i w s)
  | .rxcfg => (true, writeNicCfg false r.i w s)
  | .txcfg => (true, writeNicCfg true r.i w s)
  | .msixCtrl => (true, writeMsixCtrl r.i w s)
  | .cairnAck => (true, writeCairnAck w s)
  | .cairnWinsel => (true, writeCairnWinsel w s)
  | .probectl => (true, writeProbectl r.i w s)
  | .ptprate => (true, (rebasePtp r.i s).setReg .ptprate r.i 0 w)
  | .ptpstepLo => (true, writePtpStep r.i w s)
  | .illstat =>
    let x := s.recThisCycle .illstat r.i
    (true, if bit w 31 && x ≠ 0 then s.setReg .illstat r.i 0 x else clearSet r w s)
  | _ =>
    if ws ≠ 0 then joinGroup (r.addr, w &&& ws) s
    else (true, clearSet r w s)

/-- A write of a mapped register, applied whole or rejected whole with WRITE_REJECT (R7, R9). -/
def writeReg (r : Reg) (w : Word) (s : State) : Bool × State :=
  let wx := r.name.row.maskOf (· == .wx)
  if !(valueOk r w) || (wx ≠ 0 && wxRuns s r) then (false, writeReject s) else applyWrite r w s

/-- An aligned 32-bit write of BAR0: whether it was accepted, and the state after it (R6, R389, R415). -/
def busWrite (a : Nat) (w : Word) (s : State) : Bool × State :=
  if blockHidden s a then (true, s)
  else match mappedReg a with
    | none => (false, writeReject s)
    | some r => if a % 4 ≠ 0 then (false, writeReject s) else writeReg r w s

/-- A host write of bytes: one or two aligned 32-bit writes, lower address first; any other size or alignment is dropped
(R6). -/
def hostWrite (a : Nat) (bytes : List Byte) (s : State) : State :=
  if blockHidden s a then s
  else if bytes.length = 4 && a % 4 = 0 then (busWrite a (BitVec.ofNat 32 (leNat bytes)) s).2
  else if bytes.length = 8 && a % 8 = 0 then
    let s := (busWrite a (BitVec.ofNat 32 (leAt bytes 0 4)) s).2
    (busWrite (a + 4) (BitVec.ofNat 32 (leAt bytes 4 4)) s).2
  else writeReject s

/-- A write of one register by its own command. -/
def writeOf (n : RegName) (i : Nat) (w : Word) (s : State) : State := (busWrite (Reg.addr ⟨n, i, 0⟩) w s).2

/-- A host read of `n` bytes: one or two aligned 32-bit reads, lower address first; any other size or alignment returns all ones
and has no effect (R6). -/
def hostRead (a n : Nat) (s : State) : List Byte × State :=
  if n = 4 && a % 4 = 0 then
    let r := busRead a s
    (leBytes 4 r.1.toNat, r.2)
  else if n = 8 && a % 8 = 0 then
    let r := busRead a s
    let q := busRead (a + 4) r.2
    (leBytes 4 r.1.toNat ++ leBytes 4 q.1.toNat, q.2)
  else (List.replicate n 0xFF, s)

/-- A host read that begins at a register by its own command, with what it returns. -/
def readOf (n : RegName) (i len : Nat) (s : State) : State :=
  let r := hostRead (Reg.addr ⟨n, i, 0⟩) len s
  r.2.emit (.readData r.1)

/-! ### REGRD and REGWR of the droveway -/

/-- The BAR0 address a register packet names at its node: word WORD of the fold's or the node's register block (R249). -/
def pktReg (p : Pkt) (fold : Bool) : Nat :=
  (if fold then 0x300000 else 0x100000) + 4096 * p.dst.toNat + 4 * (p.word.toNat % 1024)

/-- REGRD at its node: the register's value in a REGDATA response. -/
def regrdOp (p : Pkt) (fold : Bool) (s : State) : State :=
  if p.net != .req || p.type ≠ 8 || 288 ≤ p.dst.toNat || (fold && 272 ≤ p.dst.toNat) then s
  else
    match takeLocal p.dst.toNat 4 p s with
    | none => s
    | some s =>
      let r := busRead (pktReg p fold) s
      r.2.emit (.packet (reply r.2 p.dst.toNat p 5 [BitVec.ofNat 64 r.1.toNat]))

/-- REGWR at its node: the write, and an ACK. -/
def regwrOp (p : Pkt) (fold : Bool) (s : State) : State :=
  if p.net != .req || p.type ≠ 9 || 288 ≤ p.dst.toNat || (fold && 272 ≤ p.dst.toNat) then s
  else
    match takeLocal p.dst.toNat 4 p s with
    | none => s
    | some s =>
      let s := (busWrite (pktReg p fold) (BitVec.ofNat 32 (p.body.payload.headD 0).toNat) s).2
      s.emit (.packet (reply s p.dst.toNat p 1 []))

/-! ### The commands -/

/-- HOSTTICK (R18). -/
def execHosttick (w : Word) (s : State) : Out := .next (writeOf .hosttick 0 w s)

/-- WG_ARM: a write of 1 to WG.CTRL.ARM (R322). -/
def execWgArm (s : State) : Out := .next (writeOf .wgCtrl 0 1 s)

/-- WG_DISCARD: a write of 1 to WG.CTRL.DISCARD (R322). -/
def execWgDiscard (s : State) : Out := .next (writeOf .wgCtrl 0 2 s)

/-- REGISTER_WRITE (R6, R7). -/
def execRegisterWrite (addr : BitVec 26) (bytes : List Byte) (s : State) : Out := .next (hostWrite addr.toNat bytes s)

/-- EPOCH_LO_READ (R6, R17). -/
def execEpochLoRead (s : State) (len : Fin 9 := 4) : Out := .next (readOf .epochLo 0 len s)

/-- TIMERX_LO_READ (R6, R363). -/
def execTimerxLoRead (l : Fin 32) (s : State) (len : Fin 9 := 4) : Out := .next (readOf .timerxLo l len s)

/-- PTPTIME_LO_READ (R6, R369). -/
def execPtptimeLoRead (l : Fin 32) (s : State) (len : Fin 9 := 4) : Out := .next (readOf .ptptimeLo l len s)

/-- PTPSTEP_LO_WRITE (R369). -/
def execPtpstepLoWrite (l : Fin 32) (w : Word) (s : State) : Out := .next (writeOf .ptpstepLo l w s)

/-- PROBECTL_WRITE (R277). -/
def execProbectlWrite (n : Fin 288) (w : Word) (s : State) : Out := .next (writeOf .probectl n w s)

/-- RING_ENABLE (R404). -/
def execRingEnable (w : Word) (s : State) : Out := .next (writeOf .ringcfg 0 w s)

/-- MSIX_UNMASK (R405). -/
def execMsixUnmask (v : Fin 64) (w : Word) (s : State) : Out := .next (writeOf .msixCtrl v w s)

/-- CAIRN_ACK_WRITE (R454). -/
def execCairnAckWrite (w : Word) (s : State) : Out := .next (writeOf .cairnAck 0 w s)

/-- CAIRN_WINSEL_WRITE (R449). -/
def execCairnWinselWrite (w : Word) (s : State) : Out := .next (writeOf .cairnWinsel 0 w s)

/-- DMA_ENABLE (R407). -/
def execDmaEnable (c : Fin 8) (w : Word) (s : State) : Out := .next (writeOf .dmaCtrl c w s)

/-- DMA_RESUME: a write of CTRL whose RESUME is 1 (R408). -/
def execDmaResume (c : Fin 8) (w : Word) (s : State) : Out := .next (writeOf .dmaCtrl c (w ||| 0x40000000#32) s)

/-- NIC_RING_ENABLE (R409). -/
def execNicRingEnable (l : Fin 32) (tx : Bool) (w : Word) (s : State) : Out :=
  .next (writeOf (if tx then .txcfg else .rxcfg) l w s)

/-- REGRD (R249). -/
def execRegrd (p : Pkt) (fold : Bool) (s : State) : Out := .next (regrdOp p fold s)

/-- REGWR (R249). -/
def execRegwr (p : Pkt) (fold : Bool) (s : State) : Out := .next (regwrOp p fold s)

/-- The message that a vector's hold-off held back is sent; in D3hot it stays held (R387, R405). -/
def sendHeld (v : Nat) (s : State) : State :=
  if s.inD3 || !(bit s.evt.heldOff v) then s
  else signal v { s with evt := { s.evt with heldOff := s.evt.heldOff &&& ~~~(1#64 <<< v) } }

/-- HOLDOFF_EXPIRY: the hold-off of a vector ends, and a held signal sends its message (R405). -/
def execHoldoffExpiry (v : Fin 64) (s : State) : Out :=
  .next (if bit s.evt.heldOff v then
      sendHeld v (match Store.get s.evt.sent none v with
        | none => s
        | some t => advanceTime (t + 1000 * s.rf .holdoff 0 9 0) s)
    else s)

/-- Return to D0: the messages owed are sent, of vectors unmasked or out of their hold-off meanwhile (R387, R405; log entry 115). -/
def returnD0 (s : State) : State :=
  (List.range 64).foldl (fun s v =>
    if !(bit (s.reg .msixCtrl v) 0) && bit (s.reg .msixPba (v / 32)) (v % 32) then signal v (setPba v false s)
    else if inHoldoff v s then s else sendHeld v s) (s.setRf .usbStatus 0 24 24 0)

end Sys2Proof.Machine
end

