-- ==== Sys2Proof/Machine/Whole.lean ====
section
/-! DEFINITION. What an activation leaves in force, and the checks that judge it: a write group's (R323), and those of R296 and
R297 that involve the configuration in force (R234, R284, R299, R307, R518). -/

namespace Sys2Proof.Machine

/-! ### What an activation leaves in force -/

/-- A configuration as a check judges it: pens, period, the rest of what is in force, and the registers. -/
structure After where
  pens : List PenCfg
  period : Nat
  cfg : InForce
  place : Nat → Option Nat
  view : Reg → Word
  /-- Whether an ingest or egress item is judged, by a register of it: each under a configuration in force, those a group writes
  without one. -/
  judged : Reg → Bool

/-- The pens in force that an image replaces, by first logical fold: every one for a full image (R301, R307). -/
def replacedPens (s : State) (img : Image) : List Nat :=
  let l := lfsOf img.pens
  ((s.arr.pens.filter fun p => img.full || p.members.any l.contains)).map (·.cfg.first)

/-- The logical folds of the pens an image replaces. -/
def replacedLfs (s : State) (img : Image) : List Nat :=
  let r := replacedPens s img
  lfsOf ((s.arr.pens.filter fun p => r.contains p.cfg.first).map (·.cfg))

/-- The programs of an image under the first logical folds of its pens. -/
def programsOf (img : Image) : List (Nat × List (BitVec 14) × List Half) :=
  img.programs.filterMap fun x => (img.pens[x.1]?).map fun p => (p.first, x.2)

/-- Replace the blocks that a list names, and add the others. -/
def mergeBlocks (old new : List TabBlock) : List TabBlock :=
  (old.filter fun b => (blockOf new b.unit b.net b.stage b.port).isNone) ++ new

/-- A table set over another one (R307, R313, R316). -/
def mergeSet (old : TabSet) : Option TabSet → TabSet
  | none => old
  | some n => { num := old.num, routes := n.routes, blocks := mergeBlocks old.blocks n.blocks }

/-- The bridge sets of an image over those in force. -/
def mergeAlts (old new : List TabSet) : List TabSet :=
  (old.map fun x => mergeSet x (new.find? (·.num == x.num))) ++ new.filter fun x => !(old.any (·.num == x.num))

/-- A table set in force: the normal one, or a bridge set over it (R316). -/
def setTables (f : InForce) (k : Nat) : TabSet :=
  match f.alts.find? (·.num == k) with
  | none => f.tables
  | some a => { num := k, routes := if a.routes.isEmpty then f.tables.routes else a.routes
                blocks := mergeBlocks f.tables.blocks a.blocks }

/-- The participants of a stage in force after an image without a SCHEDULE: replacing pens with the first logical fold of a
replaced pen take its part (R518). -/
def keepParts (rep : List Nat) (img : Image) (l : List (Nat × BitVec 14)) : List (Nat × BitVec 14) :=
  l.filter fun p => !(rep.contains p.1) || img.pens.any (·.first == p.1)

/-- The stages after a partial activation (R307, R518). -/
def mergeStages (rep : List Nat) (img : Image) (old : List Stage) : List Stage :=
  match img.stages with
  | none => old.map fun x => { x with parts := keepParts rep img x.parts }
  | some new => (List.range old.length).filterMap fun k =>
      match old[k]?, new[k]? with
      | some x, some y => some { y with parts := (x.parts.filter fun p => !(rep.contains p.1)) ++ y.parts }
      | some x, none => some { x with parts := x.parts.filter fun p => !(rep.contains p.1) }
      | none, _ => none

/-- The configuration in force after an activation of an image (R304, R307, R318, R319). -/
def inForceAfter (s : State) (img : Image) (digest : List Byte) (enc : Bool) : InForce :=
  match img.full, s.ldr.inForce with
  | false, some f =>
    let rep := replacedPens s img
    { f with
      enc := f.enc || enc
      stages := mergeStages rep img f.stages
      routing := (f.routing.filter fun x => !(rep.contains (x.owner % 256))) ++ img.routing
      tables := mergeSet f.tables img.tables
      alts := mergeAlts f.alts img.alts
      resv := mergeBlocks f.resv (img.resv.getD [])
      subst := (f.subst.filter fun x => !(img.subst.any (·.lf == x.lf))) ++ img.subst
      programs := (f.programs.filter fun x => !(rep.contains x.1)) ++ programsOf img }
  | _, _ =>
    { digest := digest, enc := enc, reloc := img.reloc, stages := img.stages.getD [], routing := img.routing
      tables := img.tables.getD ⟨0, [], []⟩, alts := img.alts, resv := img.resv.getD [], subst := img.subst
      programs := programsOf img }

/-- The pens after an activation. -/
def pensAfter (s : State) (img : Image) : List PenCfg :=
  let rep := replacedPens s img
  ((s.arr.pens.map (·.cfg)).filter fun p => !(rep.contains p.first)) ++ img.pens

/-- The physical fold of each logical fold after an activation (R319). -/
def placeAfter (s : State) (img : Image) (lf : Nat) : Option Nat :=
  if img.full then (img.reloc[lf]?).map (·.1) else s.pfOf lf

/-- The register a record names, a fold register through a relocation table (R284). -/
def recReg (place : Nat → Option Nat) (x : RegRec) : Option Reg :=
  match mappedReg x.1 with
  | none => none
  | some r => if isFoldReg r then (place r.i).map fun pf => { r with i := pf } else some r

/-- The value the records of an image leave in a register, the last one for it (R284). -/
def recordedValue (place : Nat → Option Nat) (l : List (Nat × RegRec)) (r : Reg) : Option Word :=
  (l.reverse.find? fun x => recReg place x.2 == some r).map (·.2.2)

/-- What an activation of an image would leave in force: a full image's own values, each register it does not list at its reset
value; a partial image's values over those in force (R296 INGEST_EGRESS; log entry 65). -/
def afterImage (s : State) (img : Image) : After :=
  let pl := placeAfter s img
  { pens := pensAfter s img, period := img.period.getD s.period, cfg := inForceAfter s img [] false, place := pl
    view := fun r => (recordedValue pl img.regs r).getD (if img.full then r.name.row.rstVal else s.regR r)
    judged := fun _ => true }

/-- What a group would leave in force at its tick (R323). -/
def afterGroup (s : State) (l : List RegRec) : After :=
  let v := fun r => match l.find? (·.1 == Reg.addr r) with
    | some x => x.2
    | none => s.regR r
  { pens := s.arr.pens.map (·.cfg), period := fld (v ⟨.period, 0, 0⟩) 30 0
    cfg := s.ldr.inForce.getD {}, place := s.pfOf, view := v
    judged := fun r => s.ldr.inForce.isSome || l.any (·.1 == r.addr) }

/-! ### Checks 0x3 to 0x8 of R323: the code of a failure and the register that shows it -/

/-- PERIOD (R28). -/
def checkPeriod (a : After) : Option (Nat × Reg) :=
  match a.cfg.stages.getLast? with
  | none => none
  | some x => if a.period < x.deadline + 1024 then some (3, ⟨.period, 0, 0⟩) else none

/-- SYNC (R49). -/
def checkSync (a : After) : Option (Nat × Reg) :=
  let c := a.view ⟨.synccfg, 0, 0⟩
  let pos := fld c 3 0
  let sync := fld (a.view ⟨.tickcfg, 0, 0⟩) 2 0 = 4
  if (pos = 0) = sync || fld c 7 4 < pos then some (4, ⟨.synccfg, 0, 0⟩) else none

/-- LANE_TICK. -/
def checkLaneTick (a : After) : Option (Nat × Reg) :=
  let t := a.view ⟨.tickcfg, 0, 0⟩
  let c := a.view ⟨.laneCfg, fld t 12 8, 0⟩
  let i := fld (a.view ⟨.ltintv, 0, 0⟩) 29 0
  if fld t 2 0 = 2 && (!(bit c 31) || (bit c 30 && (i = 0 || i < a.period))) then some (5, ⟨.tickcfg, 0, 0⟩) else none

/-- PEN_AGREE (R87, R170): the first member that differs from its pen's first. -/
def checkAgree (a : After) : Option (Nat × Reg) :=
  a.pens.findSome? fun p =>
    let l := ((List.range p.count).map (p.first + ·)).filterMap a.place
    match l with
    | [] => none
    | x :: t => t.findSome? fun y =>
      if a.view ⟨.seqcfg, y, 0⟩ ≠ a.view ⟨.seqcfg, x, 0⟩ then some (6, ⟨.seqcfg, y, 0⟩)
      else if a.view ⟨.racfg, y, 0⟩ ≠ a.view ⟨.racfg, x, 0⟩ then some (6, ⟨.racfg, y, 0⟩) else none

/-- A lane's ingest target (R370, R371): pen, first column and width, first row and rows, planes of a buffer, bases in use. -/
structure Target where
  pen : Nat
  x0 : Nat
  width : Nat
  y0 : Nat
  rows : Nat
  planes : Nat
  bases : List Nat

/-- The target of a lane (R370, R371). -/
def targetOf (view : Reg → Word) (l : Nat) : Target :=
  let c := view ⟨.ingcfg, l, 0⟩
  let g := view ⟨.inggeom, l, 0⟩
  let r := view ⟨.ingrows, l, 0⟩
  let p := view ⟨.ingplanes, l, 0⟩
  ⟨fld (view ⟨.ingsrc, l, 0⟩) 31 24, fld g 31 16, fld g 15 0, fld r 31 16, fld r 15 0, fld c 26 19 * fld c 13 9,
    fld p 10 0 :: (if bit c 30 then [fld p 21 11] else [])⟩

/-- The target of a lane with ingest enabled. -/
def State.ingestTarget (s : State) (l : Nat) : Option Target := guardOpt (bit (s.reg .ingcfg l) 31) (targetOf s.regR l)

/-- Whether two ranges of addresses meet. -/
def rangesMeet (a n b m : Nat) : Bool := a < b + m && b < a + n

/-- Whether a target lies within its pen, clear of the carried region (R371). -/
def targetOk (pens : List PenCfg) (t : Target) : Bool :=
  match pens.find? (·.first == t.pen) with
  | none => false
  | some p =>
    t.x0 + t.width ≤ 64 * p.width && t.y0 + t.rows ≤ 64 * (p.count / p.width) &&
      t.bases.all fun b => b + t.planes ≤ 2048 && !(0 < p.carried && 0 < t.planes && rangesMeet b t.planes p.cbase p.carried)

/-- Whether two targets conflict (R323). -/
def targetsClash (t u : Target) : Bool :=
  t.pen = u.pen && t.bases.any (fun a => u.bases.any fun b => rangesMeet a t.planes b u.planes) &&
    rangesMeet t.y0 t.rows u.y0 u.rows &&
    t.x0 / 64 ≤ (u.x0 + u.width - 1) / 64 && u.x0 / 64 ≤ (t.x0 + t.width - 1) / 64

/-- Whether a lane's ingest is judged. -/
def ingestJudged (a : After) (l : Nat) : Bool :=
  [.ingcfg, .ingsrc, .inggeom, .ingrows, .ingplanes].any fun n : RegName => a.judged ⟨n, l, 0⟩

/-- INGEST. -/
def checkIngest (a : After) : Option (Nat × Reg) :=
  (List.range 32).findSome? fun l =>
    let on := fun k => bit (a.view ⟨.ingcfg, k, 0⟩) 31
    let t := targetOf a.view l
    if (ingestJudged a l && !(targetOk a.pens t)) || (List.range l).any fun k =>
        on k && on l && (ingestJudged a l || ingestJudged a k) && targetsClash t (targetOf a.view k)
    then some (7, ⟨.ingcfg, l, 0⟩) else none

/-- EGRESS. -/
def checkEgress (a : After) : Option (Nat × Reg) :=
  allChannels.findSome? fun c =>
    let r := egCfgReg c
    if a.judged r && !(a.pens.any (·.first == fld (a.view r) 7 0)) then some (8, r) else none

/-- Checks 0x3 to 0x8, the lowest code first (R323). -/
def wholeChecks (a : After) : Option (Nat × Reg) :=
  [checkPeriod a, checkSync a, checkLaneTick a, checkAgree a, checkIngest a, checkEgress a].findSome? id

/-! ### Register records (R284) -/

/-- Whether a record of a section may not stand in an image. -/
def recordBroken (type sflags : Nat) (x : RegRec) : Bool :=
  match mappedReg x.1 with
  | none => true
  | some r => x.1 % 4 ≠ 0 || blockOfReg r.name ≠ blockOfSec type || !(valueOk r x.2) ||
      (type = 0xC && regionOf r ≠ sflags) || (isFoldReg r && 256 ≤ r.i)

/-- REGISTER (R284, R296). -/
def registerErr (ss : List Sec) : Option ImgErr :=
  (ss.filter fun x => 0xA ≤ x.type && x.type ≤ 0xE).findSome? fun x =>
    if x.body.length % 8 ≠ 0 then some (chk 1 x.offset x.idx)
    else ((recordsOf 8 x).find? fun r => recordBroken x.type x.sflags (leAt r.2 0 4, BitVec.ofNat 32 (leAt r.2 4 4))).map
      fun r => chk 0xF (leAt r.2 0 4) x.idx

/-! ### Drivers (R299) -/

/-- A driver on a segment. -/
abbrev Drv := Nat × Nat

/-- The edge drivers that a view of the registers enables in the regions a test picks. -/
def edgeDrivers (view : Reg → Word) (pick : Nat → Bool) : List Drv :=
  ((List.range 16).filter pick).flatMap fun r => (List.range 256).filterMap fun j =>
    if 1 ≤ r && 224 ≤ j then none
    else
      let w := view ⟨.seg, r, j⟩
      if bit w 31 then some (edgeSegIndex r j, fld w 11 0) else none

/-- The regions of an image's EDGE sections and PINS records: those it replaces, every one for a full image (R307,
R310); a PINS record alone counts for its whole region (DESIGN CHOICE, log entry 136). -/
def regionsOf (img : Image) (r : Nat) : Bool :=
  img.full || img.regs.any fun x =>
    (x.1 = 16 * 0xC + r) || (x.1 / 16 = 0xD && match mappedReg x.2.1 with
      | none => false
      | some g => regionOf g = r)

/-- The drivers of an image, and for a partial one those in force that stay (R299). -/
def driverSet (s : State) (img : Image) : List Drv :=
  let own := img.routing.map fun x => (x.seg, x.drv)
  let v := fun r => (recordedValue (fun _ => none) img.regs r).getD 0
  let edge := edgeDrivers v fun _ => true
  if img.full then own ++ edge
  else
    let rep := replacedPens s img
    let stay := match s.ldr.inForce with
      | none => []
      | some f => (f.routing.filter fun x => !(rep.contains (x.owner % 256))).map fun x => (x.seg, x.drv)
    own ++ edge ++ stay ++ edgeDrivers s.regR fun r => !(img.regs.any (·.1 == 16 * 0xC + r))

/-- A patch's segment records over a driver set (R318). -/
def patched (l : List Drv) (x : SubstBlk) : List Drv :=
  x.segs.foldl (fun l g => if g.2.1 then (g.1, g.2.2) :: l else l.filter (· != (g.1, g.2.2))) l

/-- A segment with two drivers. -/
def clash (l : List Drv) : Option Nat := (l.find? fun x => l.any fun y => y.1 == x.1 && y.2 != x.2).map (·.1)

/-- The patches in force after an image. -/
def patchesAfter (s : State) (img : Image) : List SubstBlk :=
  if img.full then img.subst
  else match s.ldr.inForce with
    | none => img.subst
    | some f => (f.subst.filter fun x => !(img.subst.any (·.lf == x.lf))) ++ img.subst

/-- The first segment that two drivers share: alone, under each patch, under each pair of patches (R299). -/
def contention (s : State) (img : Image) : Option Nat :=
  let l := driverSet s img
  let ps := patchesAfter s img
  match clash l with
  | some g => some g
  | none =>
    match ps.findSome? fun p => clash (patched l p) with
    | some g => some g
    | none => ps.findSome? fun p => ps.findSome? fun q => if p.lf < q.lf then clash (patched (patched l p) q) else none

/-- CONTENTION. -/
def contentionErr (s : State) (img : Image) : Option ImgErr := (contention s img).map fun g => chk 0xE g noSec

/-! ### Power (R234, R285) -/

/-- The state a list of records gives an item, the last one that names it. -/
def recorded (l : List PowRec) (kind index : Nat) : Option (BitVec 2) :=
  (l.reverse.find? fun r => r.kind.toNat == kind && r.index.toNat == index).map (·.state)

/-- The recorded state of a pen after an activation. -/
def penAfter (s : State) (img : Image) (first : Nat) : BitVec 2 :=
  match recorded img.power 0 first with
  | some x => x
  | none =>
    if img.pens.any (·.first == first) then 2
    else match s.penAt first with
      | none => 2
      | some p => BitVec.ofNat 2 (powerCode p.recorded)

/-- The recorded state of a logical fold's bank after an activation. -/
def bankAfter (s : State) (img : Image) (lf : Nat) : BitVec 2 :=
  match recorded img.power 1 lf with
  | some x => x
  | none =>
    if img.full || (lfsOf img.pens).contains lf then 2
    else match s.bankOf lf with
      | none => 2
      | some b => BitVec.ofNat 2 (powerCode (s.bank b).recorded)

/-- The logical fold placed on a bank's fold after an activation. -/
def lfAfter (s : State) (img : Image) (b : Nat) : Option Nat :=
  (List.range 256).find? fun lf => if img.full then placeAfter s img lf == some b else s.bankOf lf == some b

/-- The banks that reservations name. -/
def reservedBanks (l : List TabBlock) : List Nat := (l.filter resvUsed).map (·.unit)

/-- RESERVATION (R218, R234, R235): a table without room, or a bank that is not ON. A bank without a logical fold is ON after a full
load (R285; log entry 66); a FAILED bank is FOLD_UNUSABLE's (R232). -/
def reservationErr (s : State) (img : Image) (ss : List Sec) : Option ImgErr :=
  let l := (inForceAfter s img [] false).resv
  match l.find? fun x => resvFull x || (resvUsed x && match lfAfter s img x.unit with
      | none => !img.full && !(s.bank x.unit).failed && (s.bank x.unit).recorded != .on
      | some lf => bankAfter s img lf ≠ 2 && (img.full || !(s.bank x.unit).failed)) with
  | none => none
  | some x => some (chk 0xC x.unit (idxOf ss 8))

/-- Whether a logical fold's bank must be ON after an activation (R234). -/
def bankNeeded (s : State) (img : Image) (lf : Nat) : Bool :=
  (pensAfter s img).any fun p => p.first ≤ lf && lf < p.first + p.count && (0 < p.carried || penAfter s img p.first = 2)

/-- Whether a power record names nothing. -/
def powUnknown (s : State) (img : Image) (r : PowRec) : Bool :=
  match r.kind.toNat with
  | 0 => !((pensAfter s img).any (·.first == r.index.toNat))
  | 1 => 256 ≤ r.index.toNat
  | 2 => 32 ≤ r.index.toNat
  | _ => false

/-- POWER (R234, R285, R296). -/
def powerErr (s : State) (img : Image) (ss : List Sec) : Option ImgErr :=
  let l := img.power
  let i := idxOf ss 0xF
  match (List.range l.length).find? fun k => match l[k]? with
      | none => false
      | some r => powReserved r || powUnknown s img r with
  | some k => some (chk 0xD k i)
  | none =>
    match (List.range 256).find? fun lf => bankNeeded s img lf && bankAfter s img lf ≠ 2 with
    | none => none
    | some lf =>
      let k := (List.range l.length).find? fun k => match l[k]? with
        | none => false
        | some r => (r.kind = 1 && r.index.toNat = lf) || (r.kind = 0 && r.state = 2 &&
            (pensAfter s img).any fun p => p.first == r.index.toNat && p.first ≤ lf && lf < p.first + p.count)
      some (chk 0xD (k.getD 0) i)

/-! ### Folds (R232) -/

/-- FOLD_UNUSABLE: a logical fold on an ISOLATED fold or a FAILED bank, or a FAILED bank in a reservation. A partial image leaves a
LOST member LOST (R68). -/
def foldUnusableErr (s : State) (img : Image) (ss : List Sec) : Option ImgErr :=
  let bad := fun pf => ((s.fold pf).role == .isolated && (img.full || !(s.fold pf).lost)) || (s.bank pf).failed
  let l := if img.full then img.reloc.map (·.1) else (lfsOf img.pens).filterMap s.pfOf
  match l.find? bad with
  | some pf => some (chk 0x14 pf (idxOf ss 2))
  | none => ((reservedBanks (img.resv.getD [])).find? fun b => (s.bank b).failed).map fun b => chk 0x14 b (idxOf ss 8)

/-- INGEST_EGRESS (R296, R323). -/
def ingestEgressErr (s : State) (img : Image) : Option ImgErr :=
  (wholeChecks (afterImage s img)).map fun x => chk 0x15 x.2.addr noSec

/-! ### Partial images (R307) -/

/-- The entries of a run list, one by one, as owner and entry. -/
def entriesOf (l : List TabRun) : List (BitVec 9 × BitVec 12) := l.flatMap fun r => List.replicate r.len (r.owner, r.entry)

/-- The number of the run that gives each entry. -/
def runOfEntry (l : List TabRun) : List Nat := l.zipIdx.flatMap fun r => List.replicate r.1.len r.2

/-- Whether an entry is free: an output's 0b111, a reservation's kind 0. -/
def entryFree (resv : Bool) (e : BitVec 12) : Bool := if resv then fld e 11 9 = 0 else fld e 2 0 = 7

/-- The run of a block with the first entry that it changes and that is neither free nor owned by a replaced pen. -/
def blockOutside (resv : Bool) (rep : List Nat) (old : List TabBlock) (x : TabBlock) : Option Nat :=
  match blockOf old x.unit x.net x.stage x.port with
  | none => none
  | some y => (((entriesOf x.runs).zip (entriesOf y.runs)).zip (runOfEntry x.runs)).findSome? fun e =>
      guardOpt (e.1.1 != e.1.2 && !(entryFree resv e.1.2.2) &&
        !(256 ≤ e.1.2.1.toNat && rep.contains (e.1.2.1.toNat % 256))) e.2

/-- Whether a block changes any entry. -/
def blockChanges (old : List TabBlock) (x : TabBlock) : Bool :=
  match blockOf old x.unit x.net x.stage x.port with
  | none => true
  | some y => entriesOf x.runs != entriesOf y.runs

/-- The first entry of a table section that changes what it may not, at the run that gives it (R296). -/
def tableOutside (resv : Bool) (rep : List Nat) (old : List TabBlock) (base : Nat) (x : Sec) : Option ImgErr :=
  ((blocksOf x.body x.body.length base).findSome? fun y => (blockOutside resv rep old y.2).map fun r => y.1 + 4 + 4 * r).map fun o =>
    chk 0x12 (x.offset + o) x.idx

/-- The first PENS record that covers no whole pens: a logical fold of a replaced pen that no record covers shows at the record
that replaces its pen (R307). -/
def coverErr (s : State) (img : Image) (x : Sec) : Option ImgErr :=
  let new := lfsOf img.pens
  ((recordsOf 16 x).find? fun r =>
    let p := penOf r.2
    (List.range p.count).any fun k => match s.penOf (p.first + k) with
      | none => true
      | some o => !(o.members.all new.contains)).map fun r => chk 0x12 r.1 x.idx

/-- Where a SCHEDULE of a partial image departs from the one in force, or names a pen that is not replacing. -/
def scheduleOutside (s : State) (img : Image) (x : Sec) : Option ImgErr :=
  let p := scheduleOf x.body
  let rec go : List Stage → List Stage → Nat → Option Nat
    | [], [], _ => none
    | a :: t, b :: u, off =>
      if a.start ≠ b.start || a.deadline ≠ b.deadline then some off
      else
        match a.parts.findIdx? fun q => !(img.pens.any (·.first == q.1)) with
        | some i => some (off + 16 + 4 * i)
        | none => go t u (off + 16 + 4 * a.parts.length)
    | _, _, off => some off
  if p.1 ≠ s.period then some (chk 0x12 x.offset x.idx)
  else (go p.2 s.stages 8).map fun o => chk 0x12 (x.offset + o) x.idx

/-- The records of FOLD_ROUTING that change a segment in force that is not free and not a replaced pen's. -/
def routingOutside (s : State) (rep : List Nat) (x : Sec) : Option ImgErr :=
  match s.ldr.inForce with
  | none => none
  | some f => ((recordsOf 8 x).find? fun r =>
      let seg := leAt r.2 0 8 % 2 ^ 20
      let new : SegDrv := segDrvOf (leAt r.2 0 8)
      f.routing.any fun y => y.seg == seg && y != new && !(rep.contains (y.owner % 256))).map fun r => chk 0x12 r.1 x.idx

/-- The power records that name an item outside the replacement. -/
def powerOutside (img : Image) (x : Sec) : Option ImgErr :=
  ((recordsOf 4 x).find? fun r =>
    let p := powRecOf (BitVec.ofNat 32 (leAt r.2 0 4))
    !((p.kind = 0 && img.pens.any (·.first == p.index.toNat)) || (p.kind = 1 && (lfsOf img.pens).contains p.index.toNat))).map
      fun r => chk 0x12 r.1 x.idx

/-- The first PASTURE_INIT record outside the banks of the replacing pens; the fuel is the number of bytes. -/
def pinitOutside (s : State) (img : Image) (x : Sec) : Option ImgErr :=
  let banks := (lfsOf img.pens).filterMap s.bankOf
  let rec go : Nat → Nat → Option Nat
    | 0, _ => none
    | k + 1, off =>
      if x.body.length < off + 8 then none
      else
        let a := leAt x.body off 4
        let w := leAt x.body (off + 4) 4
        let n := w % 2 ^ 31
        let m := if 2 ^ 31 ≤ w then 0 else n
        if n ≠ 0 && !((List.range ((a + n - 1) / 0x80000 + 1 - a / 0x80000)).all fun i => banks.contains (a / 0x80000 + i))
        then some off
        else go k (off + 8 + m)
  (go x.body.length 0).map fun o => chk 0x12 (x.offset + o) x.idx

/-- The pen that a lane's ingest or an egress channel's register belongs to, in a view. -/
def itemOwner (view : Reg → Word) (r : Reg) : Nat :=
  match r.name with
  | .egCfg => fld (view ⟨.egCfg, r.i, r.j⟩) 7 0
  | .egTime => fld (view ⟨.egCfg, r.i, r.j⟩) 7 0
  | .egCmd => fld (view ⟨.egCfg, r.i, r.j⟩) 7 0
  | .egAux => fld (view ⟨.egCfg, r.i, r.j⟩) 7 0
  | .egStat => fld (view ⟨.egCfg, r.i, r.j⟩) 7 0
  | .ingcfg => fld (view ⟨.ingsrc, r.i, 0⟩) 31 24
  | .ingsrc => fld (view ⟨.ingsrc, r.i, 0⟩) 31 24
  | .inggeom => fld (view ⟨.ingsrc, r.i, 0⟩) 31 24
  | .ingrows => fld (view ⟨.ingsrc, r.i, 0⟩) 31 24
  | .ingplanes => fld (view ⟨.ingsrc, r.i, 0⟩) 31 24
  | .ingstat => fld (view ⟨.ingsrc, r.i, 0⟩) 31 24
  | _ => fld (view ⟨.pgCfg, r.i, 0⟩) 7 0

/-- Whether the item of a register is enabled in a view. -/
def itemOn (view : Reg → Word) (r : Reg) : Bool :=
  match blockOfReg r.name with
  | .ingest => bit (view ⟨.ingcfg, r.i, 0⟩) 31
  | _ => match r.name with
    | .egCfg => bit (view ⟨.egCfg, r.i, r.j⟩) 31
    | .egTime => bit (view ⟨.egCfg, r.i, r.j⟩) 31
    | .egCmd => bit (view ⟨.egCfg, r.i, r.j⟩) 31
    | .egAux => bit (view ⟨.egCfg, r.i, r.j⟩) 31
    | .egStat => bit (view ⟨.egCfg, r.i, r.j⟩) 31
    | _ => bit (view ⟨.pgCfg, r.i, 0⟩) 31

/-- INGEST and EGRESS records on lanes and channels of other pens. -/
def itemsOutside (s : State) (img : Image) (rep : List Nat) (x : Sec) : Option ImgErr :=
  let v := (afterImage s img).view
  ((recordsOf 8 x).find? fun r => match mappedReg (leAt r.2 0 4) with
    | none => false
    | some g => !(img.pens.any (·.first == itemOwner v g)) || (itemOn s.regR g && !(rep.contains (itemOwner s.regR g)))).map
      fun r => chk 0x12 r.1 x.idx

/-- A check over the sections of one type. -/
def overSecs (ss : List Sec) (type : Nat) (g : Sec → Option ImgErr) : Option ImgErr :=
  (ss.filter (·.type == type)).findSome? g

/-- OWNER (R307). -/
def ownerErr (s : State) (img : Image) (ss : List Sec) : Option ImgErr :=
  match s.ldr.inForce with
  | none => none
  | some f =>
    let rep := replacedPens s img
    firstFail [overSecs ss 1 (coverErr s img), overSecs ss 5 (scheduleOutside s img), overSecs ss 4 (routingOutside s rep),
      overSecs ss 6 (tableOutside false rep f.tables.blocks 144),
      overSecs ss 7 fun x => tableOutside false rep (setTables f x.sflags).blocks 144 x,
      overSecs ss 8 (tableOutside true rep f.resv 0), overSecs ss 0xF (powerOutside img),
      overSecs ss 0x10 (pinitOutside s img), overSecs ss 0xA (itemsOutside s img rep), overSecs ss 0xB (itemsOutside s img rep)]

/-- Whether a patch in force touches an entry or a segment that a partial image changes (R307). -/
def patchTouched (f : InForce) (img : Image) (p : SubstBlk) : Bool :=
  (p.segs.any fun g => img.routing.any fun x => x.seg == g.1 && !(f.routing.contains x)) ||
  p.blocks.any fun b =>
    let set := if b.1 = 0 then img.tables else img.alts.find? (·.num == b.1)
    let old := (setTables f b.1).blocks
    match set with
    | none => false
    | some t => match blockOf t.blocks b.2.unit b.2.net b.2.stage b.2.port with
      | none => false
      | some x => blockChanges old x

/-- PATCH_STALE (R307). -/
def patchStaleErr (s : State) (img : Image) (ss : List Sec) : Option ImgErr :=
  match s.ldr.inForce with
  | none => none
  | some f => (f.subst.find? fun p => !(img.subst.any (·.lf == p.lf)) && patchTouched f img p).map fun p =>
      chk 0x13 p.lf (idxOf ss 9)

/-- BASE_MISMATCH: a partial image needs the full image it names in force. -/
def baseErr (s : State) (base : List Byte) : Option ImgErr :=
  match s.ldr.inForce with
  | none => some (chk 0x11 0 noSec)
  | some f => failIf (f.digest ≠ base) (chk 0x11 0 noSec)

/-- The entries a replacing pen inherits lie below its ILEN (R518). -/
def inheritedErr (s : State) (img : Image) : Option ImgErr :=
  if img.full || img.stages.isSome then none
  else
    let rep := replacedPens s img
    (s.stages.findIdx? fun st => st.parts.any fun p =>
      rep.contains p.1 && img.pens.any (·.first == p.1) && ilenOf img.pens img.programs p.1 ≤ p.2.toNat).map fun k =>
        chk 8 k noSec

/-- The stages an image's pens take part in. -/
def stagesFor (s : State) (img : Image) : List Stage :=
  match img.stages with
  | some l => l
  | none => if img.full then [] else mergeStages (replacedPens s img) img s.stages

/-! ### The checks together (R296, R297) -/

/-- The checks of an image's contents, in the order of R296's table up to PASTURE. -/
def contentErr (s : State) (img : Image) (ss : List Sec) : Option ImgErr :=
  let st := stagesFor s img
  let full := img.full
  firstFail [overSecs ss 1 (pensErr full), programsErr img.pens.length ss, overSecs ss 2 relocErr,
    overSecs ss 5 (scheduleErr img), carriedErr st img ss,
    overSecs ss 6 fun x => tableErr (slotBroken st) x 144, overSecs ss 7 fun x => tableErr (slotBroken st) x 144,
    overSecs ss 8 fun x => tableErr (resvBroken st) x 0, overSecs ss 9 (substErr st), overSecs ss 4 routingErr,
    if full then reservationErr s img ss else none, if full then powerErr s img ss else none,
    if full then contentionErr s img else none, registerErr ss, overSecs ss 0x10 pastureErr]

/-- The checks of R297: for a partial image all that involve the configuration in force, for a full one FOLD_UNUSABLE at
activation; INGEST_EGRESS for both. -/
def forceErr (s : State) (img : Image) (base : List Byte) (ss : List Sec) : Option ImgErr :=
  if img.full then foldUnusableErr s img ss
  else firstFail [baseErr s base, reservationErr s img ss, powerErr s img ss, contentionErr s img, inheritedErr s img,
    ownerErr s img ss, patchStaleErr s img ss, foldUnusableErr s img ss, ingestEgressErr s img]

end Sys2Proof.Machine
end

