-- ==== Sys2Proof/Machine/Lane.lean ====
section
/-! DEFINITION. The sensor lanes: Filop Link messages, lines and the corner-turner, 25GBASE-R frames, the lane host rings, the
link (R355 to R376, R383, R409). -/

namespace Sys2Proof.Machine

/-! ### Counters, events, the link -/

/-- DROP of a lane, once in a frame (R383). -/
def laneDrop (l : Nat) (s : State) : State :=
  if (s.lane l).dropFired then s else (fire (1216 + 2 * l + 1) 0 s).modLane l fun x => { x with dropFired := true }

/-- A coding, CRC or FCS failure. -/
def rxCrc (l : Nat) (s : State) : State := laneDrop l (s.count .rxcnt0 l 31 16 1)

/-- A line lost for want of a buffer or a row. -/
def rxOverrun (l : Nat) (s : State) : State := s.count .rxcnt0 l 15 0 1

/-- A discarded line. -/
def rxLineErr (l : Nat) (s : State) : State := s.count .rxcnt1 l 31 16 1

/-- Rows skipped. -/
def rxLost (l n : Nat) (s : State) : State := s.count .rxcnt1 l 15 0 n

/-- A malformed message or block. -/
def rxProtocol (l : Nat) (s : State) : State := s.count .rxcnt2 l 31 16 1

/-- An unmatched message or frame. -/
def rxUnmatched (l : Nat) (s : State) : State := s.count .rxcnt2 l 15 0 1

/-- Whether a lane is enabled in 25GBASE-R mode. -/
def State.etherLane (s : State) (l : Nat) : Bool := bit (s.reg .laneCfg l) 31 && bit (s.reg .laneCfg l) 30

/-- A lane's link state changes: STATUS, and LINK once in a frame; a failed or disabled lane never reports up (R356, R383,
R416). -/
def linkChange (l : Nat) (up : Bool) (s : State) : State :=
  let c := s.reg .laneCfg l
  if up = bit (s.reg .laneStatus l) 31 || (up && (!(bit c 31) || (s.lane l).failed)) then s
  else
    let s := s.setReg .laneStatus l 0 (bit32 up 31 ||| bit32 up 30 ||| bit32 (up && bit c 30 && bit c 29) 29)
    if (s.lane l).linkFired then s else (fire (1216 + 2 * l) up.toNat s).modLane l fun x => { x with linkFired := true }

/-- The lane's reset domain: PCS, MAC, line buffers, the rings' hardware state (R356, R423). -/
def resetLane (l : Nat) (s : State) : State :=
  let s := linkChange l false s
  (s.modLane l fun x => { x with line := none, bufs := [], gvsp := none, gvspLen := 0 }).modNic l fun _ => {}

/-! ### Lines (R361, R362, R370 to R375) -/

/-- The line size of a lane (R370). -/
def lineSize (s : State) (l : Nat) : Nat :=
  let c := s.reg .ingcfg l
  let n := s.rf .inggeom l 15 0 * fld c 26 19
  if bit c 28 then (n * fld c 18 14 + 7) / 8 else n * (if fld c 18 14 = 8 then 1 else 2)

/-- Put an accepted line on a target row: it waits in a line buffer (R362, R371, R374). -/
def placeLine (l row seq : Nat) (bytes : List Byte) (s : State) : State :=
  let b := if bit (s.reg .ingcfg l) 30 then (bit s.frame.epoch 0).toNat else 0
  s.modLane l fun x =>
    { x with pos := some (row, seq), bufs := x.bufs ++ [⟨bytes, row, b⟩]
             ingCount := if x.ingCount = 0xFFFF then 0xFFFF else x.ingCount + 1 }

/-- A closed line is accepted or not, and placed on its row (R361, R362, R375). -/
def closeLine (l seq : Nat) (bytes : List Byte) (s : State) : State :=
  if bytes.length ≠ lineSize s l || 32768 < bytes.length || (s.lane l).ingLoad then rxLineErr l s
  else
    let rows := s.rf .ingrows l 15 0
    match (s.lane l).pos with
    | none => if rows = 0 then rxOverrun l s else placeLine l 0 seq bytes s
    | some (r, q) =>
      let g := (seq + 2 ^ 20 - q) % 2 ^ 20
      if g = 0 || 2 ^ 19 ≤ g then rxLineErr l s
      else if rows ≤ r + g then rxOverrun l s
      else placeLine l (r + g) seq bytes (rxLost l (g - 1) s)

/-- Open a line with its first block, or lose it for want of a free buffer (R361, R373). -/
def openLine (l seq : Nat) (last : Bool) (bytes : List Byte) (s : State) : State :=
  if 2 ≤ (s.lane l).bufs.length then laneDrop l (rxOverrun l s)
  else if last then closeLine l seq bytes s
  else s.modLane l fun x => { x with line := some ⟨seq, 0, bytes⟩ }

/-- A block of a line (R361). -/
def imageBlock (l : Nat) (flags block : Nat) (bytes : List Byte) (s : State) : State :=
  let seq := block / 4096
  let idx := block % 4096
  let first := flags % 2 = 1
  let last := flags / 2 % 2 = 1
  match (s.lane l).line with
  | some o =>
    if !first && seq = o.seq && idx = o.idx + 1 then
      let s := s.modLane l fun x => { x with line := if last then none else some ⟨seq, idx, o.bytes ++ bytes⟩ }
      if last then closeLine l seq (o.bytes ++ bytes) s else s
    else
      let s := rxLineErr l (s.modLane l fun x => { x with line := none })
      if first && idx = 0 then openLine l seq last bytes s else s
  | none => if first && idx = 0 then openLine l seq last bytes s else s

/-! ### Messages (R358 to R360, R363, R365) -/

/-- What a failed check of R360 counts. -/
inductive RxFail
  | crc | protocol | unmatched
  deriving DecidableEq, Repr

/-- The first check of R360 that a message fails. -/
def messageFail (s : State) (l : Nat) (m : List Byte) (coded : Bool) : Option RxFail :=
  let n := leAt m 14 2
  let type := leAt m 0 1
  let flags := leAt m 1 1
  if coded then some .crc
  else if m.length ≠ 20 + n || 8192 < n then some .protocol
  else if crc32c (m.take (16 + n)) ≠ leAt m (16 + n) 4 then some .crc
  else if (type = 1 && flags < 4) || (type = 3 && flags < 2 && n = 8) || (type = 4 && flags = 0 && n ≤ 64) then
    if type = 1 && (leAt m 2 2 ≠ s.rf .ingsrc l 15 0 || !(bit (s.reg .ingcfg l) 31)) then some .unmatched else none
  else some .protocol

/-- A message that fails a check is discarded and counted (R360). -/
def discardMessage (l : Nat) (f : RxFail) (s : State) : State :=
  match f with
  | .crc => rxCrc l s
  | .protocol => rxProtocol l s
  | .unmatched => rxUnmatched l s

/-- A TIME message: TIMERX, and a tick request when it says so and the lane is the source (R18, R363). -/
def timeMessage (l : Nat) (m : List Byte) (s : State) : State :=
  let s := s.modLane l fun x => { x with timeRx := BitVec.ofNat 64 (leAt m 16 8) }
  if leAt m 1 1 % 2 = 1 && s.rf .tickcfg 0 12 8 = l then tickRequest 2 s else s

/-- A STATUS message (R365). -/
def statusMessage (l : Nat) (m : List Byte) (s : State) : State :=
  let n := leAt m 14 2
  let b := (m.drop 16).take n
  let s := (List.range 16).foldl (fun s i => s.setReg .statusrx l i (BitVec.ofNat 32 (leAt b (4 * i) 4))) s
  s.setReg .statusinfo l 0 (at32 (leAt m 2 2) 16 ||| at32 n 0)

/-- A message that passes R360 takes effect by its type. -/
def acceptMessage (l : Nat) (m : List Byte) (s : State) : State :=
  match leAt m 0 1 with
  | 1 => imageBlock l (leAt m 1 1) (leAt m 10 4) ((m.drop 16).take (leAt m 14 2)) s
  | 3 => timeMessage l m s
  | 4 => statusMessage l m s
  | _ => s

/-- A message reaches a Filop Link lane: its own row of the table acts on it, or it fails a check (R360). -/
def receiveMessage (l : Nat) (type : Nat) (m : List Byte) (coded : Bool) (s : State) : State :=
  if !(s.linkLane l) then s
  else match messageFail s l m coded with
    | some f => discardMessage l f s
    | none => if leAt m 0 1 = type then acceptMessage l m s else s

/-! ### The corner-turner (R370 to R372, R375, R376) -/

/-- Sample `n` of a line (R370). -/
def sampleOf (c : Word) (b : List Byte) (n : Nat) : Nat :=
  let d := fld c 18 14
  if bit c 28 then (leAt b (n * d / 8) 4 >>> (n * d % 8)) % 2 ^ d
  else if d = 8 then leAt b n 1
  else leAt b (2 * n) 2 % 2 ^ d

/-- The 64 bits of one plane of a line for fold column `fx` (R371, R372). -/
def turnRow (c : Word) (width x0 ch bitNo fx : Nat) (b : List Byte) : Dword :=
  (List.range 64).foldl (fun (v : Dword) x =>
    let px := 64 * fx + x
    let i := px - x0
    if px < x0 || width ≤ i then v
    else
      let n := if bit c 29 then ch * width + i else i * fld c 26 19 + ch
      if (sampleOf c b n).testBit bitNo then v ||| (1#64 <<< x) else v) 0

/-- The fold columns and the folds of a target at a pen row (R371). -/
def targetFolds (s : State) (p : PenCfg) (t : Target) (row : Nat) : List (Nat × Nat) :=
  (List.range ((t.x0 + t.width - 1) / 64 + 1)).filterMap fun fx =>
    if fx < t.x0 / 64 || p.width ≤ fx then none
    else (s.pfOf (p.first + row / 64 * p.width + fx)).map fun pf => (fx, pf)

/-- Whether a lane taps a fold: its target, under TAPEN, covers it (R376). -/
def taps (s : State) (l pf : Nat) : Bool :=
  bit (s.reg .ingcfg l) 27 &&
    match s.ingestTarget l with
    | none => false
    | some t => match s.penAt t.pen with
      | none => false
      | some p => (List.range ((t.y0 + t.rows - 1) / 64 + 1)).any fun fy =>
          t.y0 / 64 ≤ fy && (targetFolds s p.cfg t (64 * fy)).any (·.2 == pf)

/-- Copy a row to the tap plane of a fold, if no lower-numbered lane taps it (R376). -/
def tapRow (l pf y : Nat) (r : Dword) (s : State) : State :=
  if (List.range l).any fun k => taps s k pf then s
  else s.modFold pf fun f => { f with pe := { f.pe with tap := setRow f.pe.tap y r } }

/-- Write the rows of a line into the target pen: folds ascending, planes ascending (R371, R372, R376). A fold out of ON keeps
its rows: its clocks are stopped (R81). -/
def turnLine (l : Nat) (x : LineBuf) (s : State) : State :=
  let c := s.reg .ingcfg l
  match s.ingestTarget l with
  | none => s
  | some t => match s.penAt t.pen with
    | none => s
    | some p =>
      let keep := fld c 13 9
      let y := t.y0 + x.row
      let base := if x.buf = 1 then s.rf .ingplanes l 21 11 else s.rf .ingplanes l 10 0
      let now := if bit c 30 then (bit s.frame.epoch 0).toNat else 0
      if 64 * (p.cfg.count / p.cfg.width) ≤ y then s
      else
        (targetFolds s p.cfg t y).foldl (fun s f =>
          if (s.fold f.2).power != .on then s
          else
            (List.range (fld c 26 19 * keep)).foldl (fun s k =>
              let r := turnRow c t.width t.x0 (k / keep) (fld c 18 14 - keep + k % keep) f.1 x.bytes
              let s := writeRow f.2 (base + k) (y % 64) r false s
              if bit c 27 && k = s.rf .ingplanes l 31 22 && x.buf = now then tapRow l f.2 (y % 64) r s else s) s) s

/-- CORNER_TURN: the oldest accepted line leaves its buffer; while the lane's ingest records are loaded nothing is written
(R372, R375). -/
def cornerTurn (l : Nat) (s : State) : State :=
  match (s.lane l).bufs with
  | [] => s
  | x :: t =>
    let s := s.modLane l fun n => { n with bufs := t }
    if (s.lane l).ingLoad then s else turnLine l x s

/-- What a tick does in a lane: the open line goes, the row position, LINES, the frame's marks (R362, R374, R376, R383). -/
def laneTick (l : Nat) (s : State) : State :=
  let x := s.lane l
  let torn := match x.gvsp with
    | none => false
    | some g => g.taken && !g.bytes.isEmpty && !g.skip && !g.full
  let s := if x.line.isSome || torn then rxLineErr l s else s
  let s := if x.ingCount = 0 && s.rf .ingstat l 15 0 = 0 then s else s.setReg .ingstat l 0 (at32 x.ingCount.toNat 0)
  s.modLane l fun x =>
    { x with line := none, pos := none, ingCount := 0, dropFired := false, linkFired := false
             gvsp := match x.gvsp with
               | none => none
               | some g => some (if torn || g.full then { g with skip := true, full := false, bytes := [] } else g) }

/-! ### GVSP (R368) -/

/-- The formats of R368 as PFNC codes them (PRESUMED), with CHANNELS, DEPTH, PACK. -/
def pixelFormat : Nat → Option (Nat × Nat × Bool)
  | 0x01080001 => some (1, 8, false)
  | 0x01100003 => some (1, 10, false)
  | 0x01100005 => some (1, 12, false)
  | 0x01100007 => some (1, 16, false)
  | 0x010A0046 => some (1, 10, true)
  | 0x010C0047 => some (1, 12, true)
  | 0x02180014 => some (3, 8, false)
  | 0x02300018 => some (3, 10, false)
  | 0x0230001A => some (3, 12, false)
  | 0x02300033 => some (3, 16, false)
  | _ => none

/-- A big-endian field of a byte string. -/
def beAt (l : List Byte) (off n : Nat) : Nat := beNat (bytesAt l off n)

/-- Change a lane's GVSP block. -/
def setGvsp (l : Nat) (g : Option Gvsp) (s : State) : State := s.modLane l fun x => { x with gvsp := g }

/-- The next target row of a GVSP block (R368). -/
def nextRow (s : State) (l : Nat) : Nat :=
  match (s.lane l).pos with
  | none => 0
  | some p => p.1 + 1

/-- Rows of a GVSP block take the next target rows, written or not (R368; log entry 14). -/
def takeRows (l n : Nat) (s : State) : State :=
  if n = 0 then s else s.modLane l fun x => { x with pos := some (nextRow s l + n - 1, 0) }

/-- A row of a GVSP block that has passed: placed on the next target row, or lost, the row taken all the same (R362, R368, R373). -/
def gvspRow (l : Nat) (g : Gvsp) (bytes : List Byte) (s : State) : State :=
  if g.skip then s
  else if (s.lane l).ingLoad then rxLineErr l s
  else if g.full then takeRows l 1 s
  else if g.torn then rxLost l 1 (takeRows l 1 s)
  else if s.rf .ingrows l 15 0 ≤ nextRow s l then rxOverrun l (takeRows l 1 s)
  else placeLine l (nextRow s l) 0 bytes s

/-- The first bytes of a row need a free line buffer: without one the row is lost (R373). -/
def gvspBegin (l : Nat) (g : Gvsp) (s : State) : Gvsp × State :=
  if g.bytes.isEmpty && !g.full && !g.skip && !(s.lane l).ingLoad && 2 ≤ (s.lane l).bufs.length then
    ({ g with full := true }, laneDrop l (rxOverrun l s))
  else (g, s)

/-- Bytes of a GVSP block pass: `have` gives those that came, none of them for a gap of `n` bytes; the fuel bounds the rows. -/
def gvspFeed (l : Nat) : Nat → Gvsp → Nat → Option (List Byte) → State → Gvsp × State
  | 0, g, _, _, s => (g, s)
  | k + 1, g, n, have_, s =>
    let size := lineSize s l
    if n = 0 || size = 0 || g.rows * size ≤ g.pos then (g, s)
    else
      let left := size - g.pos % size
      let m := min left n
      let x : Gvsp × State := match have_ with
        | none => ({ g with pos := g.pos + m, torn := true }, s)
        | some b => let x := gvspBegin l g s; ({ x.1 with pos := g.pos + m, bytes := g.bytes ++ b.take m }, x.2)
      if m < left then x
      else
        let s := gvspRow l x.1 x.1.bytes x.2
        gvspFeed l k { x.1 with bytes := [], torn := false, skip := false, full := false } (n - m) (have_.map (·.drop m)) s

/-- A block ends: the rows that lack bytes are lost, and take their target rows (R368; log entry 14). -/
def gvspClose (l : Nat) (s : State) : State :=
  match (s.lane l).gvsp with
  | none => s
  | some g =>
    let s := setGvsp l none s
    let done := if lineSize s l = 0 then g.rows else g.pos / lineSize s l
    if g.taken then
      let n := g.rows - done - g.skip.toNat
      rxLost l (n - g.full.toNat) (takeRows l n s)
    else s

/-- A GVSP leader; a row that no line buffer holds takes no block (R368, R372; log entry 126). -/
def gvspLeader (l block : Nat) (b : List Byte) (s : State) : State :=
  let s := gvspClose l s
  let c := s.reg .ingcfg l
  let mk := fun (t : Bool) => setGvsp l (some { block := block, taken := t, rows := beAt b 20 4, next := 1 })
  if beAt b 2 2 ≠ 1 then rxProtocol l (mk false s)
  else if pixelFormat (beAt b 12 4) = some (fld c 26 19, fld c 18 14, bit c 28) && !(bit c 29) &&
      beAt b 16 4 = s.rf .inggeom l 15 0 && beAt b 32 4 = 0 && lineSize s l ≤ 32768 then mk true s
  else laneDrop l (rxLineErr l (mk false s))

/-- The bytes of each of the data packets of a block that are missing before one: all packets but the last have one length, that of the
packet before it in the block, else that of the stream, else its own (R368; log entry 127). -/
def gapLength (s : State) (l : Nat) (g : Gvsp) (b : List Byte) : Nat :=
  match g.prev with
  | some n => n
  | none => if (s.lane l).gvspLen = 0 then b.length else (s.lane l).gvspLen

/-- A GVSP data packet (R368). -/
def gvspData (l block id : Nat) (b : List Byte) (s : State) : State :=
  match (s.lane l).gvsp with
  | none => s
  | some g =>
    if !g.taken || g.block ≠ block || id < g.next then s
    else
      let gap := (id - g.next) * gapLength s l g b
      let s := match g.prev with
        | none => s
        | some n => s.modLane l fun x => { x with gvspLen := n }
      let r := gvspFeed l (gap + 1) g gap none s
      let r := gvspFeed l (b.length + 1) r.1 b.length (some b) r.2
      setGvsp l (some { r.1 with next := id + 1, prev := some b.length }) r.2

/-- A packet of another kind than leader, payload or trailer: its block is discarded whole and counted once (R368). -/
def gvspOther (l block : Nat) (s : State) : State :=
  let bad := setGvsp l (some { block := block, taken := false, rows := 0, next := 1 })
  match (s.lane l).gvsp with
  | none => rxProtocol l (bad s)
  | some g => if g.block ≠ block then rxProtocol l (bad (gvspClose l s)) else if g.taken then rxProtocol l (bad s) else s

/-- A GVSP packet: standard or extended-ID header (R368). -/
def gvspPacket (l : Nat) (b : List Byte) (s : State) : State :=
  let f := leAt b 4 1
  let ext := 128 ≤ f
  let block := if ext then beAt b 8 8 else beAt b 2 2
  let id := if ext then beAt b 16 4 else beAt b 5 3
  let body := b.drop (if ext then 20 else 8)
  match f % 16 with
  | 1 => gvspLeader l block body s
  | 2 => match (s.lane l).gvsp with
    | none => s
    | some g => if g.block = block then gvspClose l s else s
  | 3 => gvspData l block id body s
  | _ => gvspOther l block s

/-! ### 25GBASE-R frames (R366, R367, R369, R409) -/

/-- The FCS of a frame (PRESUMED: IEEE 802.3). -/
def ethCrc (b : List Byte) : Nat := (b.foldl (crcByte 0xEDB88320) 0xFFFFFFFF) ^^^ 0xFFFFFFFF

/-- The one's complement sum of 16-bit words. -/
def onesSum : List Byte → Nat
  | [] => 0
  | [a] => a.toNat * 256
  | a :: b :: t =>
    let x := a.toNat * 256 + b.toNat + onesSum t
    x % 65536 + x / 65536

/-- A frame as the classifier sees it: without FCS and tag, and its tag. -/
structure EthFrame where
  bytes : List Byte
  tag : Option Nat

/-- Take FCS and one tag off a frame. -/
def ethFrame (b : List Byte) : EthFrame :=
  let b := b.take (b.length - 4)
  if beAt b 12 2 = 0x8100 then ⟨b.take 12 ++ b.drop 16, some (beAt b 14 2)⟩ else ⟨b, none⟩

/-- An IPv4 datagram with a right header checksum: header length and whether it is a fragment. -/
def ipv4Of (b : List Byte) : Option (Nat × Bool) :=
  let ip := b.drop 14
  let h := 4 * (leAt ip 0 1 % 16)
  if beAt b 12 2 = 0x0800 && leAt ip 0 1 / 16 = 4 && 20 ≤ h && h ≤ ip.length && onesSum (ip.take h) = 0xFFFF then
    some (h, beAt ip 6 2 % 16384 ≠ 0)
  else none

/-- The UDP payload of an unfragmented datagram with a right checksum, and its port. -/
def udpOf (b : List Byte) : Option (Nat × List Byte) :=
  match ipv4Of b with
  | some (h, false) =>
    let ip := b.drop 14
    let u := ip.drop h
    let n := beAt u 4 2
    let pseudo := bytesAt ip 12 8 ++ [0, 17] ++ beBytes 2 n
    if leAt ip 9 1 = 17 && 8 ≤ n && n ≤ u.length &&
        (beAt u 6 2 = 0 || onesSum (pseudo ++ u.take n) = 0xFFFF) then some (beAt u 2 2, (u.take n).drop 8) else none
  | _ => none

/-- Whether a frame's addresses match the lane's (R366). -/
def addressMatch (s : State) (l : Nat) (b : List Byte) : Bool :=
  let mac := beAt b 0 6
  let ip := beAt b 30 4
  let mcast := (s.reg .laneMcast l).toNat
  (leAt b 0 1 % 2 = 1 || mac = addr64 (s.reg .macLo l) (s.reg .macHi l &&& 0xFFFF#32)) &&
    (beAt b 12 2 ≠ 0x0800 || ip = (s.reg .laneIpv4 l).toNat || (mcast ≠ 0 && ip = mcast))

/-- A timestamp: the lane's PTP clock within 4 ns, or 6 ns under RS-FEC (R369). -/
def timestamp (l : Nat) (s : State) : Nat × State :=
  let e := if bit (s.reg .laneCfg l) 29 then 6 else 4
  let x := s.draw 8
  ((ptpTime s l + 2 ^ 64 + x.1.toNat % (2 * e + 1) - e) % 2 ^ 64, x.2)

/-- Signal a ring's vector per completed descriptor (R405, R409). -/
def nicSignal (l : Nat) (tx : Bool) (s : State) : State := signal (s.rf (if tx then .txcfg else .rxcfg) l 5 0) s

/-- A frame goes to the host ring: the buffer of the descriptor at RXHEAD, or the frame is discarded (R387, R409). -/
def toHostRing (l : Nat) (f : EthFrame) (ts : Option Nat) (desc : List Byte) (s : State) : State :=
  let g := (s.nic l).rx
  let head := s.rf .rxhead l 11 0
  let n := f.bytes.length
  if !g.on || s.inD3 || s.edge.halted || head = s.rf .rxtail l 11 0 % g.size || leAt desc 8 2 < n then
    s.count .rxdrop l 31 0 1
  else
    let s := s.emit (.hostWrite (leAt desc 0 8) f.bytes)
    let w := leBytes 2 n ++ leBytes 1 (128 + 2 * f.tag.isSome.toNat + ts.isSome.toNat) ++ [0] ++
      leBytes 2 (f.tag.getD 0) ++ leBytes 8 (ts.getD 0)
    let s := s.emit (.hostWrite (g.base + 32 * head + 10) w)
    nicSignal l false (s.setRf .rxhead l 11 0 ((head + 1) % g.size))

/-- PAUSE and priority flow control frames: MAC control frames with the opcodes of IEEE 802.3 (R366; PRESUMED, log entry 92). -/
def flowControl (b : List Byte) : Bool := beAt b 12 2 = 0x8808 && (beAt b 14 2 = 0x0001 || beAt b 14 2 = 0x0101)

/-- RECEIVED_FRAME: a frame on a 25GBASE-R lane (R366, R367). -/
def receivedFrame (l : Nat) (bytes desc : List Byte) (s : State) : State :=
  if !(s.etherLane l) || bytes.length < 64 || 9216 < bytes.length then s
  else if ethCrc (bytes.take (bytes.length - 4)) ≠ leAt bytes (bytes.length - 4) 4 then rxCrc l s
  else
    let f := ethFrame bytes
    let type := beAt f.bytes 12 2
    if flowControl f.bytes then s
    else if !(addressMatch s l f.bytes) then rxUnmatched l s
    else
      let u := udpOf f.bytes
      if type = 0x88F7 || (match u with
          | some (319, _) => true
          | _ => false) then
        let t := timestamp l s
        toHostRing l f (some t.1) desc t.2
      else
        match u with
        | some (port, b) =>
          if port = s.rf .ingsrc l 15 0 && bit (s.reg .ingcfg l) 31 then gvspPacket l b s else toHostRing l f none desc s
        | none => toHostRing l f none desc s

/-- TRANSMIT_DESCRIPTOR: the descriptor at TXHEAD is sent as a frame; on a Filop Link lane it waits (R310, R387, R409). -/
def transmitDescriptor (l : Nat) (desc bytes : List Byte) (s : State) : State :=
  let g := (s.nic l).tx
  let head := s.rf .txhead l 11 0
  if !(s.etherLane l) || !g.on || s.inD3 || s.edge.halted || (s.lane l).loading || head = s.rf .txtail l 11 0 % g.size then s
  else
    let b := bytesAt bytes 0 (leAt desc 8 2)
    let flags := leAt desc 12 1
    let s := s.emit (.lane l (b ++ leBytes 4 (ethCrc b)))
    let s := s.emit (.hostWrite (g.base + 32 * head + 12) [BitVec.ofNat 8 (flags % 128 + 128)])
    let s := if flags % 2 = 1 then
        let t := timestamp l s
        t.2.emit (.hostWrite (g.base + 32 * head + 16) (leBytes 8 t.1))
      else s
    nicSignal l true (s.setRf .txhead l 11 0 ((head + 1) % g.size))

/-! ### The commands -/

/-- IMAGE_BLOCK (R361). -/
def execImageBlock (l : Fin 32) (msg : List Byte) (s : State) : Out := .next (receiveMessage l 1 msg false s)

/-- TIME (R363). -/
def execTime (l : Fin 32) (msg : List Byte) (s : State) : Out := .next (receiveMessage l 3 msg false s)

/-- STATUS (R365). -/
def execStatus (l : Fin 32) (msg : List Byte) (s : State) : Out := .next (receiveMessage l 4 msg false s)

/-- MALFORMED_MESSAGE (R360). -/
def execMalformedMessage (l : Fin 32) (msg : List Byte) (coded : Bool) (s : State) : Out :=
  .next (if !(s.linkLane l) then s
    else match messageFail s l msg coded with
      | none => s
      | some f => discardMessage l f s)

/-- CORNER_TURN (R372). -/
def execCornerTurn (l : Fin 32) (s : State) : Out := .next (cornerTurn l s)

/-- RECEIVED_FRAME (R367). -/
def execReceivedFrame (l : Fin 32) (bytes desc : List Byte) (s : State) : Out := .next (receivedFrame l bytes desc s)

/-- LINK (R383). -/
def execLink (l : Fin 32) (up : Bool) (s : State) : Out := .next (linkChange l up s)

/-- TRANSMIT_DESCRIPTOR (R409). -/
def execTransmitDescriptor (l : Fin 32) (desc bytes : List Byte) (s : State) : Out := .next (transmitDescriptor l desc bytes s)

end Sys2Proof.Machine
end

