-- ==== Sys2Proof/Machine/Mbox.lean ====
section
/-! DEFINITION. The mailbox that every command runs in, presence, the secure pasture (R237 to R240, R391 to R401, R413, R415, R432,
R456, R457, R464). -/

namespace Sys2Proof.Machine

/-! ### Status codes (R393) -/

/-- BUSY. -/
def stBusy : Nat := 1
/-- UNKNOWN_CMD. -/
def stUnknown : Nat := 2
/-- BAD_ARG. -/
def stBadArg : Nat := 3
/-- NEED_PRESENCE. -/
def stNeedPresence : Nat := 4
/-- WRONG_LIFECYCLE. -/
def stWrongLc : Nat := 5
/-- CHECK_FAIL. -/
def stCheckFail : Nat := 6
/-- SIGNATURE_FAIL. -/
def stSignature : Nat := 7
/-- VERSION_REFUSED. -/
def stVersion : Nat := 8
/-- SESSION_OWNED. -/
def stOwned : Nat := 9
/-- NO_SPACE. -/
def stNoSpace : Nat := 0xA
/-- NOT_READY. -/
def stNotReady : Nat := 0xB
/-- TIMEOUT. -/
def stTimeout : Nat := 0xC
/-- ISOLATED. -/
def stIsolated : Nat := 0xD

/-! ### Requests and responses -/

/-- A request as a command sees it: port, ARG, payload, and whether the flash store takes a write. -/
structure Req where
  svc : Bool
  arg : Nat
  data : List Byte
  flashOk : Bool
  bad : Option (Fin 4096)

/-- What a command answers: STATUS, DETAIL, ARG and payload (R392). -/
structure Rsp where
  status : Nat := 0
  detail : Nat := 0
  arg : Nat := 0
  data : List Byte := []

/-- A status and nothing else. -/
def Rsp.err (st : Nat) : Rsp := { status := st }

/-- The answer of a failed image check (R296). -/
def Rsp.check (e : ImgErr) : Rsp := { status := e.status, detail := e.detail, arg := e.arg }

/-- What a command does: its answer and the state it leaves. -/
abbrev Cmd := Req → State → Rsp × State

/-- A command of a request header. -/
def knownCodes : List Nat :=
  [0x01, 0x10, 0x11, 0x12, 0x13, 0x14, 0x18, 0x20, 0x21, 0x22, 0x23, 0x24, 0x30, 0x31, 0x38, 0x40, 0x41, 0x48, 0x49, 0x50,
   0x51, 0x58, 0x60, 0x61]

/-- The update commands. -/
def updateCode (c : Nat) : Bool := 0x20 ≤ c && c ≤ 0x24

/-- Whether the module runs a command in its present state: all from READY on; in STANDBY, during the self-test and in HALTED
those of R415; in LOADER those of R413 step 4, on the service port only; none in OFF and in the rest of start-up (R400, R412, R413,
R415, R432). -/
def served (s : State) (svc : Bool) (c : Nat) : Bool :=
  match s.mode with
  | .ready => true
  | .run => true
  | .shed => true
  | .off => false
  | .starting => svc && s.phase = .loader && (c = 0x01 || c = 0x38 || updateCode c)
  | _ => c = 0x01 || c = 0x30 || c = 0x31 || c = 0x38 || c = 0x40 || c = 0x41 || updateCode c

/-- Whether the hub runs what answers commands: every one is NOT_READY before (R400, R412, R413). -/
def hubServes (s : State) : Bool := s.mode != .off && (s.mode != .starting || s.phase == .loader)

/-- Whether a command header breaks R391. -/
def headerBad (h : List Byte) : Bool := 65536 < leAt h 4 4 || 2 ≤ leAt h 8 1 || leAt h 9 3 ≠ 0

/-- A response for the service port's IN transfer; one that stands there goes (R401; log entry 109). -/
def serviceAnswer (hdr data : List Byte) (s : State) : State :=
  ({ s with host := { s.host with svcResp := some (hdr, data) } }).emit (.service hdr data)

/-- Put a response where its port shows it: the host's payload and header registers, or the service port's transfer; then
MAILBOX_RESPONSE (R392, R399, R401). -/
def respondMbox (m : MboxReq) (h : List Byte) (r : Rsp) (s : State) : State :=
  let box := s.host.mbox
  let give := !m.svc && !r.data.isEmpty && !box.lostPayload
  let plost := give && !m.writeOk
  let hdr := bytesAt h 0 4 ++ leBytes 4 r.data.length ++ leBytes 1 r.status ++ leBytes 1 r.detail ++
    leBytes 1 plost.toNat ++ [0] ++ leBytes 4 r.arg
  let s := if m.svc then serviceAnswer hdr r.data s
    else
      let s := if give && m.writeOk then s.emit (.hostWrite box.rpay r.data) else s
      let s := (List.range 4).foldl (fun s i => s.setReg .rsphdr i 0 (BitVec.ofNat 32 (leAt hdr (4 * i) 4))) s
      let s := s.setRf .mboxStatus 0 30 30 1
      { s with host := { s.host with mbox := { box with busy := false, lostPayload := false } } }
  if leAt h 8 1 % 2 = 1 then s else fire 21 (65536 * m.svc.toNat + leAt h 2 2) s

/-- The header of the command a request runs: the host's as captured at the doorbell. -/
def reqHeader (m : MboxReq) (s : State) : List Byte := if m.svc then m.hdr else s.host.mbox.hdr

/-- Whether a mailbox command of the given codes is there to be run: the host's is waiting, the service port's came in a
transfer of the right length (R399, R401). -/
def arrived (m : MboxReq) (s : State) (code : Nat → Bool) : Bool :=
  let h := reqHeader m s
  code (leAt h 0 2) &&
    (if m.svc then m.hdr.length = 16 && m.payload.length = leAt h 4 4 else s.host.mbox.busy)

/-- Run a mailbox command: what turns it away before it runs, its effect, its response (R394, R399, R400). -/
def runMbox (f : Cmd) (m : MboxReq) (s : State) : State :=
  let h := reqHeader m s
  let n := leAt h 4 4
  if !(hubServes s) then respondMbox m h (.err stNotReady) s
  else if headerBad h then respondMbox m h (.err stBadArg) s
  else if !m.svc && 0 < n && !m.readOk then respondMbox m h (.err stTimeout) s
  else if !(served s m.svc (leAt h 0 2)) then respondMbox m h (.err stNotReady) s
  else
    let r := f ⟨m.svc, leAt h 12 4, bytesAt m.payload 0 n, m.flashOk, m.bad⟩ s
    if !m.svc && s.host.mbox.rmax < r.1.data.length then
      respondMbox m h { status := stBadArg, arg := r.1.data.length } s
    else respondMbox m h r.1 r.2

/-- The commands that run one at a time, in the order of their acceptance: those that touch a configuration session, the update
session, the write group, settings, presence or life cycle (R394). -/
def serialCode (c : Nat) : Bool :=
  (0x10 ≤ c && c ≤ 0x14) || c = 0x18 || updateCode c || c = 0x30 || c = 0x31 || c = 0x40 || c = 0x41 || c = 0x61

/-- Whether the host mailbox holds such a command that no waiting service-port command precedes. -/
def hostFirst (s : State) : Bool :=
  let b := s.host.mbox
  b.busy && serialCode (leAt b.hdr 0 2) && !b.after

/-- A row of the command table: such a command waits for one of the other mailbox accepted before it, of two accepted in one HCLK
cycle (2 ns) that of the service port runs first; while a service-port command waits, further transfers are NAKed (R394, R401; log entry 109). -/
def mboxCmd (code : Nat) (f : Cmd) (m : MboxReq) (s : State) : State :=
  if !(arrived m s (· == code)) then s
  else if !m.svc then (if serialCode code && s.host.mbox.after && s.host.svcHeld.isSome then s else runMbox f m s)
  else match s.host.svcHeld with
    | some x =>
      if x ≠ m || hostFirst s then s else runMbox f m { s with host := { s.host with svcHeld := none } }
    | none =>
      if serialCode code && hostFirst s && s.host.mbox.since / 2 < s.frame.time / 2 then
        { s with host := { s.host with svcHeld := some m, svcResp := none } }
      else runMbox f m s

/-- A command that only answers. -/
def answer (r : Rsp) : State → Rsp × State := fun s => (r, s)

/-- A command whose ARG is 0 and whose payload is empty. -/
def noArgs (f : Req → State → Rsp × State) : Cmd :=
  fun q s => if q.arg ≠ 0 || !q.data.isEmpty then (.err stBadArg, s) else f q s

/-! ### Presence (R456, R457) -/

/-- Whether presence is asserted. -/
def State.present (s : State) : Bool := s.hub.pres.source ≠ 0

/-- Presence ends (R456). -/
def endPresence (s : State) : State :=
  if s.present then fire 8 0 { s with hub := { s.hub with pres := { s.hub.pres with source := 0, ends := 0 } } } else s

/-! ### Secure pasture (R238 to R240, R464) -/

/-- A trigger wipes the secure pasture, with a cause, or joins the wipe in progress. The hub accepts it within 2 µs; clearing and reading back
take 16,384 ns, and once more when the first read-back fails, which it does before a second that fails, and which is left free where the
second one is good (R238 to R240; log entry 101). -/
def wipeSecure (cause : Nat) (bad : Option (Fin 4096)) (s : State) : State :=
  let s := (wipeDue s).setRf .secpast 0 7 4 cause
  if s.wiping then s
  else
    let d := s.draw 16
    let again := d.2.draw 1
    let s := again.2.setRf .secpast 0 31 30 2
    let till := s.frame.time + d.1.toNat % 2001 + (if bad.isSome || again.1 = 1 then 32768 else 16384)
    { s with mem := Store.dropRange s.mem 0x8800000 0x8A00000
             ecc := Store.dropRange s.ecc (272 * 65536) (276 * 65536)
             hub := { s.hub with cfgKey := none, wipe := some { till := till, bad := bad.map (·.val) } } }

/-- Time passes until the wipe in progress has ended (R240). -/
def finishWipe (s : State) : State :=
  match s.hub.wipe with
  | none => s
  | some w => endWipe w.bad (advanceTime w.till s)

/-- Place a configuration key in the secure pasture; a wipe discards it (R240, R464). -/
def loadKey (k : List Byte) (s : State) : State :=
  let s := wipeDue s
  if s.wiping then s else { s.setRf .secpast 0 31 30 1 with hub := { s.hub with cfgKey := some k } }

/-- The stored configuration key, while it unwraps under the tamper count (R465, R467). -/
def storedKey (s : State) : Option (List Byte) :=
  match s.hub.settings.cur.key with
  | none => none
  | some k => if k.2 = s.hub.fuses.tampers then some k.1 else none

/-- Unwrap the stored configuration key into the secure pasture, unless a wipe has failed (R239, R465). -/
def unwrapKey (s : State) : State :=
  match storedKey s with
  | none => s
  | some k => if s.rf .secpast 0 31 30 = 3 then s else loadKey k s

/-! ### The commands -/

/-- UNKNOWN_CMD: a code R395 does not list, or a service-port transfer of the wrong length (R395, R401). -/
def unknownOp (m : MboxReq) (s : State) : State :=
  if m.svc && s.host.svcHeld.isSome then s
  else if m.svc && !(m.hdr.length = 16 && m.payload.length = leAt m.hdr 4 4) then
    let x := s.draw 16
    serviceAnswer (leBytes 2 0 ++ leBytes 2 x.1.toNat ++ leBytes 4 0 ++ leBytes 1 stBadArg ++ leBytes 7 0) [] x.2
  else if arrived m s fun c => !(knownCodes.contains c) then
    let h := reqHeader m s
    if !(hubServes s) then respondMbox m h (.err stNotReady) s
    else if headerBad h then respondMbox m h (.err stBadArg) s
    else if s.mode = .starting then respondMbox m h (.err stNotReady) s
    else respondMbox m h (.err stUnknown) s
  else s

/-- UNKNOWN_CMD (R395, R401). -/
def execUnknownCmd (m : MboxReq) (s : State) : Out := .next (unknownOp m s)

end Sys2Proof.Machine
end

