-- ==== Sys2Proof/Machine/Settings.lean ====
section
/-! DEFINITION. The settings: the record in use, the flash slots, SETTINGS_READ and SETTINGS_WRITE, PRESENCE_STATUS, IDENTIFY
(R396, R458, R463 to R465, R468, R484 to R487). -/

namespace Sys2Proof.Machine

/-! ### The record -/

/-- A field of the settings record (R487). -/
inductive SetField
  | serial | macBase | refSel | auto1 | auto2 | presWin | healthS | healthF | hLimit | volt | provPub | pinSafe
  | key (k : Nat)
  | cfgKey
  deriving DecidableEq, Repr

/-- The field that holds a byte of the record; none for the header and the reserved bytes (R487). -/
def fieldAt (o : Nat) : Option SetField :=
  if 0x10 ≤ o && o < 0x18 then some .serial
  else if 0x18 ≤ o && o < 0x1E then some .macBase
  else if o = 0x20 then some .refSel
  else if o = 0x21 then some .auto1
  else if o = 0x22 then some .auto2
  else if 0x24 ≤ o && o < 0x26 then some .presWin
  else if 0x28 ≤ o && o < 0x2C then some .healthS
  else if 0x2C ≤ o && o < 0x30 then some .healthF
  else if 0x30 ≤ o && o < 0x34 then some .hLimit
  else if 0x40 ≤ o && o < 0x50 then some .volt
  else if 0x60 ≤ o && o < 0xC1 then some .provPub
  else if 0x100 ≤ o && o < 0x1C0 then some .pinSafe
  else if 0x200 ≤ o && o < 0x400 then some (.key ((o - 0x200) / 128))
  else if 0x400 ≤ o && o < 0x4A0 then some .cfgKey
  else none

/-- The default of a byte of the record. -/
def setDefault (o : Nat) : Byte :=
  match fieldAt o with
  | some .serial => Config.serial.getD (o - 0x10) 0
  | some .macBase => Config.macBase.getD (o - 0x18) 0
  | some .auto1 => 0xFF
  | some .auto2 => 0xFF
  | some .presWin => (leBytes 2 600).getD (o - 0x24) 0
  | some .healthS => (leBytes 4 120).getD (o - 0x28) 0
  | some .healthF => (leBytes 4 10000).getD (o - 0x2C) 0
  | some .hLimit => (leBytes 4 86400).getD (o - 0x30) 0
  | some .volt => 1
  | some .provPub => Config.provPub.getD (o - 0x60) 0
  | _ => 0

/-- A byte of a record, but for CFGKEY and the header. -/
def SetRec.byte (r : SetRec) (o : Nat) : Byte := Store.get r.bytes (setDefault o) o

/-- Write a byte of a record. -/
def SetRec.put (r : SetRec) (o : Nat) (b : Byte) : SetRec := { r with bytes := Store.set r.bytes (setDefault o) o b }

/-- Write bytes of a record from an offset on. -/
def SetRec.putAll (r : SetRec) (o : Nat) : List Byte → SetRec
  | [] => r
  | b :: t => (r.put o b).putAll (o + 1) t

/-- A field of a record as a number. -/
def SetRec.num (r : SetRec) (o n : Nat) : Nat := leNat ((List.range n).map fun i => r.byte (o + i))

/-- A field of the record in use. -/
def State.setting (s : State) (o n : Nat) : Nat := s.hub.settings.cur.num o n

/-- A customer key that is enrolled (R463). -/
def customerKey (s : State) (k : Nat) : Option (List Byte) :=
  let r := s.hub.settings.cur
  if k < 4 && r.byte (0x200 + 128 * k) = 1 then some ((List.range 97).map fun i => r.byte (0x201 + 128 * k + i)) else none

/-- The settings versions of an image: the lowest it reads and the one it writes (R469). -/
def fwSetMin (img : List Byte) : Nat := leAt img 22 2
/-- SETVER of a firmware image. -/
def fwSetVer (img : List Byte) : Nat := leAt img 24 2

/-- The state byte of CFGKEY: 0 none, 1 valid, 2 stale (R464, R465). -/
def keyState (s : State) : Nat :=
  match s.hub.settings.cur.key with
  | none => 0
  | some k => if k.2 = s.hub.fuses.tampers then 1 else 2

/-- Bytes 16 to 65,535 of a record as the flash store holds them: above 0x4FF all reserved, 0. -/
def storedBytes (r : SetRec) : List Byte :=
  let l := (List.range 0x3F0).map fun i => r.byte (16 + i)
  let k := match r.key with
    | none => List.replicate 160 0
    | some x => bytesAt (Config.sealedKey x.1 x.2) 0 160
  l ++ k ++ List.replicate (65536 - 0x4A0) 0

/-- The 16 header bytes of the record in use (R484). -/
def setHeader (s : State) : List Byte :=
  let x := s.hub.settings
  leBytes 4 0x53475A49 ++ leBytes 2 x.version ++ leBytes 2 0 ++ leBytes 4 (if x.unreadable then 0 else x.gen) ++
    leBytes 4 (crc32c (storedBytes x.cur))

/-- A byte of the record in use as SETTINGS_READ shows it. -/
def readSetting (s : State) (o : Nat) : Byte :=
  if o < 16 then (setHeader s).getD o 0
  else if fieldAt o = some .cfgKey then BitVec.ofNat 8 (if o = 0x400 then keyState s else 0)
  else s.hub.settings.cur.byte o

/-- SETTINGS_READ (R395, R486). -/
def settingsReadOp : Cmd := fun q s =>
  let n := leAt q.data 0 4
  if q.data.length ≠ 4 || n = 0 || 65536 < n || 65536 < q.arg + n then (.err stBadArg, s)
  else ({ data := (List.range n).map fun i => readSetting s (q.arg + i) }, s)

/-! ### Writing a generation -/

/-- The generation of a slot; an unused one counts as 0. -/
def slotGen : SetSlot → Nat
  | .good _ g _ => g
  | _ => 0

/-- Write a new generation of the record into the other slot, and use it (R485, R486). -/
def writeGeneration (r : SetRec) (s : State) : State :=
  let x := s.hub.settings
  let i : Fin 2 := if x.unreadable then 0 else if x.slot = 0 then 1 else 0
  let g := max (slotGen x.slots[0]) (slotGen x.slots[1]) + 1
  let v := fwSetVer s.hub.fw.active
  { s with hub := { s.hub with settings :=
    { x with slots := x.slots.set i (.good v g r), slot := i, version := v, gen := g, unreadable := false, cur := r } } }

/-- Whether every value of the fields a write reaches is in range, as the record would stand after it (R463, R487). -/
def fieldValueOk (r : SetRec) : SetField → Bool
  | .refSel => r.num 0x20 1 ≤ 3
  | .auto1 => r.num 0x21 1 ≤ 2 || r.num 0x21 1 = 0xFF
  | .auto2 => r.num 0x22 1 ≤ 2 || r.num 0x22 1 = 0xFF
  | .presWin => 60 ≤ r.num 0x24 2 && r.num 0x24 2 ≤ 3600
  | .healthS => 30 ≤ r.num 0x28 4 && r.num 0x28 4 ≤ 3600
  | .healthF => r.num 0x2C 4 ≤ 1000000
  | .hLimit => 600 ≤ r.num 0x30 4 && r.num 0x30 4 ≤ 604800
  | .volt => (List.range 16).all fun i => r.num (0x40 + i) 1 ≤ 1
  | .pinSafe => (List.range 192).all fun i => r.num (0x100 + i) 1 < 32 && r.num (0x100 + i) 1 % 8 ≤ 4
  | .key k =>
    let o := 0x200 + 128 * k
    r.num o 1 ≤ 1 && (List.range 30).all (fun i => r.byte (o + 98 + i) = 0) &&
      (r.num o 1 = 1 || (List.range 97).all fun i => r.byte (o + 1 + i) = 0)
  | .provPub => false
  | _ => true

/-- Whether the conditions on life cycle and presence of a field are met: the status that refuses it (R457, R458, R468). -/
def fieldRefused (s : State) : SetField → Option Nat
  | .serial => if s.hub.fuses.lc = 0 then none else some stWrongLc
  | .macBase => if s.hub.fuses.lc = 0 then none else some stWrongLc
  | .presWin => if s.present then none else some stNeedPresence
  | .pinSafe => if s.present then none else some stNeedPresence
  | .key _ => if s.hub.fuses.lc ≠ 1 then some stWrongLc else if s.present then none else some stNeedPresence
  | .cfgKey =>
    if s.hub.fuses.lc ≠ 1 then some stWrongLc
    else if !s.present then some stNeedPresence
    else if s.tampered then some stNotReady
    else if 31 ≤ s.hub.fuses.tampers then some stNoSpace else none
  | _ => none

/-- The fields a write reaches. -/
def fieldsOf (o n : Nat) : List SetField := ((List.range n).filterMap fun i => fieldAt (o + i)).eraseDups

/-- Whether a write carries a whole key slot and a whole blob where it reaches one (R463, R464). -/
def wholeFields (o n : Nat) : SetField → Bool
  | .key k => o ≤ 0x200 + 128 * k && 0x280 + 128 * k ≤ o + n
  | .cfgKey => o ≤ 0x400 && 0x49D ≤ o + n
  | _ => true

/-- Bytes combined by exclusive or with one byte, over a block of SHA-384. -/
def hmacPad (key : List Byte) (x : Byte) : List Byte := (bytesAt key 0 128).map (· ^^^ x)

/-- HMAC-SHA-384 under a key of at most one block. -/
def hmac384 (key l : List Byte) : List Byte := Config.sha384 (hmacPad key 0x5C ++ Config.sha384 (hmacPad key 0x36 ++ l))

/-- 32 bytes of HKDF-SHA-384: salt, secret and info. -/
def hkdf384 (salt secret info : List Byte) : List Byte := bytesAt (hmac384 (hmac384 salt secret) (info ++ [1])) 0 32

/-- IHZ-CFG in ASCII. -/
def cfgInfo : List Byte := [0x49, 0x48, 0x5A, 0x2D, 0x43, 0x46, 0x47]

/-- The configuration key a CFGKEY blob of 157 bytes delivers to this module, or none where its tag fails: the ephemeral public key, the
nonce, the encrypted key and the tag; nothing else is authenticated (R464; log entry 125). -/
def unwrapBlob (blob : List Byte) : Option (List Byte) :=
  Config.gcmOpen (hkdf384 Config.serial (Config.ecdh (bytesAt blob 0 97)) cfgInfo) (bytesAt blob 97 12) [] (bytesAt blob 109 32)
    (bytesAt blob 141 16)

/-- SETTINGS_WRITE (R458, R463, R464, R468, R486, R487). -/
def settingsWriteOp : Cmd := fun q s =>
  let o := q.arg
  let n := q.data.length
  let fs := fieldsOf o n
  let plain := (List.range n).filter fun i => fieldAt (o + i) ≠ some .cfgKey
  let r := plain.foldl (fun r i => r.put (o + i) (q.data.getD i 0)) s.hub.settings.cur
  let hasKey := fs.contains .cfgKey
  let blob := bytesAt q.data (0x400 - o) 157
  let tail := bytesAt q.data (0x49D - o) (min 3 (o + n - 0x49D))
  if s.hub.fuses.lc = 3 then (.err stWrongLc, s)
  else if s.hub.fw.st = .confirming then (.err stBusy, s)
  else if n = 0 || 65536 < o + n || (List.range n).any (fun i => (fieldAt (o + i)).isNone) ||
      !(fs.all (wholeFields o n)) || !(fs.all (fieldValueOk r)) || (hasKey && tail.any (· ≠ 0)) then (.err stBadArg, s)
  else
    match fs.findSome? (fieldRefused s) with
    | some st => (.err st, s)
    | none =>
      if fs.any (fun f => match f with
          | .key k => r.byte (0x200 + 128 * k) = 1 &&
              !(Config.onCurve ((List.range 97).map fun i => r.byte (0x201 + 128 * k + i)))
          | _ => false) then (.err stCheckFail, s)
      else
        let k := if hasKey then unwrapBlob blob else none
        if hasKey && k.isNone then (.err stSignature, s)
        else if !q.flashOk then (.err stNoSpace, s)
        else
          match k with
          | none => ({}, writeGeneration r s)
          | some k => ({}, loadKey k (writeGeneration { r with key := some (k, s.hub.fuses.tampers) } s))

/-! ### IDENTIFY and PRESENCE_STATUS -/

/-- The firmware version of the running image. -/
def fwVersion (img : List Byte) : Nat := leAt img 12 4

/-- IDENTIFY (R396). -/
def identifyOp : Cmd := noArgs fun q s =>
  ({ data := leBytes 2 0x256 ++ [0xB1, 3] ++ leBytes 4 s.fwVer.toNat ++ bytesAt s.hub.serial 0 8 ++
      leBytes 1 s.hub.fuses.lc ++ leBytes 1 s.mode.code ++ leBytes 1 q.svc.toNat ++
      leBytes 1 (s.rf .usbStatus 0 29 28) ++ leBytes 4 s.hub.fuses.ver ++ leBytes 40 0 }, s)

/-- PRESENCE_STATUS (R396). -/
def presenceStatusOp : Cmd := noArgs fun _ s =>
  ({ data := leBytes 1 s.present.toNat ++ leBytes 1 s.hub.pres.source ++ leBytes 1 s.hub.fuses.lc ++ [0] ++
      leBytes 4 (presRemain s) ++ leBytes 4 (s.setting 0x24 2) ++ leBytes 4 0 }, s)

/-! ### The commands -/

/-- IDENTIFY (R396). -/
def execIdentify (m : MboxReq) (s : State) : Out := .next (mboxCmd 0x01 identifyOp m s)

/-- SETTINGS_READ (R486). -/
def execSettingsRead (m : MboxReq) (s : State) : Out := .next (mboxCmd 0x30 settingsReadOp m s)

/-- SETTINGS_WRITE (R486). -/
def execSettingsWrite (m : MboxReq) (s : State) : Out := .next (mboxCmd 0x31 settingsWriteOp m s)

/-- PRESENCE_STATUS (R396). -/
def execPresenceStatus (m : MboxReq) (s : State) : Out := .next (mboxCmd 0x40 presenceStatusOp m s)

end Sys2Proof.Machine
end

