-- ==== Sys2Proof/Machine/Loader.lean ====
section
/-! DEFINITION. Load sessions, slots, the image checks at their three moments, the request of an activation, arming by mailbox
(R286 to R297, R301, R311, R322, R463). -/

namespace Sys2Proof.Machine

/-! ### Slots -/

/-- The part of a written piece that lies in `n` bytes from an offset. -/
def pieceIn (a n : Nat) (p : Nat × List Byte) : List Byte := (p.2.drop (a - p.1)).take (n - (p.1 - a))

/-- The bytes written in a range, in order. -/
def sliceOf (l : Store (List Byte)) (a n : Nat) : List Byte := l.flatMap (pieceIn a n)

/-- Whether every byte of a range is written. -/
def covered (l : Store (List Byte)) (a n : Nat) : Bool := (sliceOf l a n).length = n

/-- The bytes of a slot. -/
def slotBytes (x : Slot) : List Byte := x.pieces.flatMap (·.2)

/-- A slot. -/
def State.slot (s : State) (i : Fin 3) : Slot := s.ldr.slots[i]

/-- Replace a slot. -/
def State.setSlot (s : State) (i : Fin 3) (x : Slot) : State :=
  { s with ldr := { s.ldr with slots := s.ldr.slots.set i x } }

/-- Erase a slot to EMPTY (R289). -/
def eraseSlot (i : Fin 3) (s : State) : State := s.setSlot i {}

/-- Whether an activation is pending or between T0 and T1. -/
def State.actBusy (s : State) : Bool := s.ldr.act == .pending || s.ldr.act == .loading || s.ldr.act == .ready

/-- Set the open session. -/
def setSession (x : Option (Bool × Fin 3 × Nat)) (s : State) : State := { s with ldr := { s.ldr with session := x } }

/-- Close the open session and erase its slot. -/
def dropSession (s : State) : State :=
  match s.ldr.session with
  | none => s
  | some x => setSession none (eraseSlot x.2.1 s)

/-! ### Failures -/

/-- Record a failed check in CFG.ERR and CFG.ERRARG (R296). -/
def recordErr (e : ImgErr) (s : State) : State :=
  (s.setReg .cfgErr 0 0 (at32 e.status 24 ||| at32 e.detail 16 ||| at32 e.sect 0)).setReg .cfgErrarg 0 0 (BitVec.ofNat 32 e.arg)

/-- CONFIG_REJECT with the status and detail of a failed check (R403). -/
def fireReject (e : ImgErr) (s : State) : State := fire 10 (e.status * 2 ^ 24 + e.detail * 2 ^ 16) s

/-- A failed check is recorded and CONFIG_REJECT fires (R296). -/
def rejectImage (e : ImgErr) (s : State) : State := fireReject e (recordErr e s)

/-- A CONFIG_FAILED record of the Cairn (R451). -/
def cairnConfig (slot : Nat) (e : ImgErr) (digest : List Byte) (s : State) : State :=
  cairnWrite 0x70 slot (leBytes 1 e.status ++ leBytes 1 e.detail ++ leBytes 2 0 ++ bytesAt digest 0 12) false true s

/-! ### Checking an image -/

/-- Where SIGNATURE starts: the last entry's offset (R278). -/
def sigOffset (l : List Byte) : Nat := (dirEnt l (imgSections l - 1)).offset

/-- The image digest (R287). -/
def imgDigest (l : List Byte) : List Byte := Config.sha384 (l.take (sigOffset l))

/-- KEYSLOT_EMPTY and SIGNATURE (R287, R296). -/
def signatureErr (s : State) (l : List Byte) : Option ImgErr :=
  match customerKey s (imgKeySlot l) with
  | none => some ⟨stSignature, 0x21, imgKeySlot l, noSec⟩
  | some k => failIf (!(Config.ecdsaOk k (imgDigest l) (bytesAt l (sigOffset l) 96))) ⟨stSignature, 0x20, 0, noSec⟩

/-- The sections in plain text: DECRYPT_KEY and GCM_TAG (R288, R296). -/
def readSections (s : State) (l : List Byte) : Sum ImgErr (List Sec) :=
  let read := fun (k : List Byte) => match plainSecs l k (List.range (imgSections l)) with
    | .inl i => .inl (⟨stSignature, 0x22, i, i⟩ : ImgErr)
    | .inr r => .inr r
  if imgEnc l then
    match s.hub.cfgKey with
    | none => .inl ⟨stNotReady, 0x30, 0, noSec⟩
    | some k => read k
  else read []

/-- The moments an image is checked at: CONFIG_END, CONFIG_ACTIVATE and T0, autoload (R293, R297, R311). -/
inductive Moment
  | ended | activated | autoload
  deriving DecidableEq, Repr

/-- Check the image of some bytes at a moment (R293, R296, R297, R311, R463). -/
def judge (s : State) (l : List Byte) (length : Nat) (m : Moment) : Sum ImgErr Image :=
  let all := m != .activated
  match firstFail [if all then formatErr l length else none, if all then targetErr l else none,
      if all then crcErrs l else none, if all then setErr l else none, signatureErr s l] with
  | some e => .inl e
  | none =>
    match readSections s l with
    | .inl e => .inl e
    | .inr ss =>
      let img := imageOf (imgPartial l) ss
      match firstFail [if all then contentErr s img ss else none,
          if img.full && m == .ended then none else forceErr s img (imgBase l) ss,
          if img.full && all then ingestEgressErr s img else none] with
      | some e => .inl e
      | none => .inr img

/-- Check the image a slot holds. -/
def judgeSlot (s : State) (i : Fin 3) (m : Moment) : Sum ImgErr Image := judge s (slotBytes (s.slot i)) (s.slot i).length m

/-! ### Sessions (R290 to R294) -/

/-- CONFIG_BEGIN (R290, R291). -/
def configBeginOp : Cmd := fun q s =>
  let other := match s.ldr.session with
    | none => false
    | some x => x.1 != q.svc
  if h : q.arg < 3 then
    let i : Fin 3 := ⟨q.arg, h⟩
    if q.data.length ≠ 128 then (.err stBadArg, s)
    else if s.hub.fuses.lc = 3 then (.err stWrongLc, s)
    else if other && !q.svc then (.err stOwned, s)
    else if other && !s.present then (.err stNeedPresence, s)
    else if (match s.ldr.inForce with
        | none => false
        | some f => f.slot == some i) || (s.actBusy && s.ldr.actSlot = i) then (.err stBadArg, s)
    else if imgEnc q.data && s.hub.cfgKey.isNone then ({ status := stNotReady, detail := 0x30 }, s)
    else if !q.flashOk then (.err stNoSpace, s)
    else
      let s := dropSession s
      let s := s.setSlot i { st := .loading, partialImage := imgPartial q.data, enc := imgEnc q.data, length := imgLength q.data }
      ({}, { s with ldr := { s.ldr with session := some (q.svc, i, s.frame.time), stolen := other || (q.svc && s.ldr.stolen) } })
  else (.err stBadArg, s)

/-- What a command within a session runs on: the session's slot, or the status that turns the command away (R291, R292). -/
def withSession (q : Req) (f : Fin 3 → State → Rsp × State) (s : State) : Rsp × State :=
  match s.ldr.session with
  | some x =>
    if x.1 = q.svc then f x.2.1 (setSession (some (x.1, x.2.1, s.frame.time)) s)
    else (.err stOwned, { s with ldr := { s.ldr with stolen := s.ldr.stolen && q.svc } })
  | none =>
    if !q.svc && s.ldr.stolen then (.err stOwned, { s with ldr := { s.ldr with stolen := false } }) else (.err stNotReady, s)

/-- The first section that a chunk completes and whose CRC fails (R286, R292). -/
def badSection (old new : Store (List Byte)) : Option ImgErr :=
  let head := sliceOf new 0 128
  let n := min (imgSections head) 512
  if !(covered new 0 (128 + 16 * n)) then none
  else
    let dir := sliceOf new 0 (128 + 16 * n)
    (List.range n).findSome? fun i =>
      let d := dirEnt dir i
      let was := covered old 0 (128 + 16 * n) && covered old d.offset d.slen
      failIf (!was && covered new d.offset d.slen && crc32c (sliceOf new d.offset d.slen) ≠ d.crc) (chk 3 i i)

/-- End a session with a failed check: the slot is erased and CONFIG_REJECT fires (R292, R293). -/
def failSession (e : ImgErr) (s : State) : Rsp × State := (.check e, rejectImage e (dropSession s))

/-- CONFIG_CHUNK (R292). -/
def configChunkOp : Cmd := fun q s =>
  withSession q (fun i s =>
    let x := s.slot i
    let n := q.data.length
    if q.arg % 16 ≠ 0 || n = 0 || x.length < q.arg + n || (n % 16 ≠ 0 && q.arg + n ≠ x.length) ||
        !(sliceOf x.pieces q.arg n).isEmpty then (.err stBadArg, s)
    else if !q.flashOk then (.err stNoSpace, s)
    else
      let p := Store.set x.pieces [] q.arg q.data
      let s' := s.setSlot i { x with pieces := p }
      match badSection x.pieces p with
      | some e => failSession e s'
      | none => ({}, s')) s

/-- CONFIG_END (R293). -/
def configEndOp : Cmd := noArgs fun q s =>
  withSession q (fun i s =>
    let x := s.slot i
    if (slotBytes x).length ≠ x.length then (.err stNotReady, s)
    else
      match judgeSlot s i .ended with
      | .inl e => failSession e s
      | .inr _ =>
        ({}, setSession none (s.setSlot i { x with st := .verified, digest := imgDigest (slotBytes x) }))) s

/-- SESSION_TIMEOUT: the session has had no command for 300 s (R294). -/
def sessionTimeout (s : State) : State :=
  match s.ldr.session with
  | none => s
  | some x => dropSession (advanceTime (x.2.2 + 300000000000) s)

/-! ### CONFIG_STORE and CONFIG_ACTIVATE -/

/-- Whether a slot is VERIFIED or STORED. -/
def slotUsable (x : Slot) : Bool := x.st == .verified || x.st == .stored

/-- CONFIG_STORE (R295). -/
def configStoreOp : Cmd := fun q s =>
  let n := leAt q.data 0 1
  if h : q.arg < 3 then
    let i : Fin 3 := ⟨q.arg, h⟩
    let x := s.slot i
    if q.data.length ≠ 4 || 2 < n || leAt q.data 1 3 ≠ 0 then (.err stBadArg, s)
    else if !(slotUsable x) then (.err stNotReady, s)
    else if n ≠ 0 && x.partialImage then (.err stBadArg, s)
    else if n ≠ 0 && s.hub.fuses.lc = 3 then (.err stWrongLc, s)
    else if n ≠ 0 && s.hub.fw.st = .confirming then (.err stBusy, s)
    else if !q.flashOk then (.err stNoSpace, s)
    else
      let s := s.setSlot i { x with st := .stored }
      ({}, if n = 0 then s else writeGeneration (s.hub.settings.cur.put (0x20 + n) (BitVec.ofNat 8 i.val)) s)
  else (.err stBadArg, s)

/-- Request an activation of a slot at an epoch, for an autoload choice or for none (R301). -/
def requestActivation (i : Fin 3) (epoch auto : Nat) (s : State) : State :=
  let s := s.setRf .cfgStatus 0 24 24 (s.slot i).partialImage.toNat
  { s with ldr := { s.ldr with act := .pending, actSlot := i, actEpoch := epoch, actArmed := false, actAuto := auto } }

/-- CONFIG_ACTIVATE (R297, R301). -/
def configActivateOp : Cmd := fun q s =>
  let e := leAt q.data 0 6
  if h : q.arg < 3 then
    let i : Fin 3 := ⟨q.arg, h⟩
    if q.data.length ≠ 8 || leAt q.data 6 2 ≠ 0 then (.err stBadArg, s)
    else if !(slotUsable (s.slot i)) then (.err stNotReady, s)
    else if s.actBusy || (s.hub.fw.st = .scheduled && s.hub.fw.epoch = e) then (.err stBusy, s)
    else if e ≠ 0 && e ≤ s.frame.epoch.toNat then (.err stBadArg, s)
    else
      match judgeSlot s i .activated with
      | .inl x => (.check x, rejectImage x s)
      | .inr _ => ({}, requestActivation i e 0 s)
  else (.err stBadArg, s)

/-! ### Autoload (R311, R418) -/

/-- The slot of an autoload choice, 1 or 2, as the settings named it at start-up (R487). -/
def autoSlot (s : State) (k : Nat) : Option (Fin 3) :=
  let n := s.hub.autoNames.getD (k - 1) 0xFF
  if h : n < 3 then some ⟨n, h⟩ else none

/-- The failure of an autoload choice before its activation (R311 steps 1 and 2). -/
def autoErr (s : State) (i : Fin 3) : Option ImgErr :=
  let x := s.slot i
  if x.st ≠ .stored || x.partialImage then some ⟨stNotReady, 0, 0, noSec⟩
  else match judgeSlot s i .autoload with
    | .inl e => some e
    | .inr _ => none

/-- Every autoload choice has failed: CONFIG_REJECT fires once for each, in order, and CFG.ERR keeps the last (R311). -/
def autoRejects (s : State) : State :=
  s.ldr.autoFails.foldl (fun s e => rejectImage e s)
    { s with ldr := { s.ldr with autoFails := [], act := if s.ldr.act = .failed then .failed else .idle, actAuto := 0 } }

/-- A choice has failed: the Cairn names it, and its failure waits until no choice is left (R311). -/
def autoFailed (i : Fin 3) (e : ImgErr) (s : State) : State :=
  let s := cairnConfig i e (s.slot i).digest s
  { s with ldr := { s.ldr with autoFails := s.ldr.autoFails ++ [e] } }

/-- Try the choices from `k` on; `n` of them are left (R311). -/
def tryAuto : Nat → Nat → State → State
  | 0, _, s => autoRejects s
  | n + 1, k, s =>
    match autoSlot s k with
    | none => tryAuto n (k + 1) s
    | some i =>
      match autoErr s i with
      | some e => tryAuto n (k + 1) (autoFailed i e s)
      | none => requestActivation i 0 k s

/-- AUTOLOAD: on entry to READY (R311, R418). -/
def autoloadOp (s : State) : State :=
  if s.phase = .ready && s.ldr.actAuto = 1 && !s.actBusy then tryAuto 2 1 s else s

/-! ### COMMIT_ARM and COMMIT_DISCARD (R322, R324) -/

/-- COMMIT_ARM and its action DISCARD. -/
def commitOp : Cmd := fun q s =>
  if 2 ≤ q.arg || !q.data.isEmpty then (.err stBadArg, s)
  else if q.arg = 1 then
    let x := s.draw 16
    ({ data := leBytes 2 x.1.toNat ++ leBytes 2 0 }, discardGroup x.2)
  else if s.ldr.armed.isSome then (.err stBusy, s)
  else ({ data := leBytes 4 s.ldr.wgNext }, armGroup s)

/-- A mailbox command of the COMMIT_ARM row whose ARG says ARM, or DISCARD. -/
def commitCmd (discard : Bool) (m : MboxReq) (s : State) : State :=
  if (leAt (reqHeader m s) 12 4 == 1) = discard then mboxCmd 0x18 commitOp m s else s

/-! ### The commands -/

/-- CONFIG_BEGIN (R290). -/
def execConfigBegin (m : MboxReq) (s : State) : Out := .next (mboxCmd 0x10 configBeginOp m s)

/-- CONFIG_CHUNK (R292). -/
def execConfigChunk (m : MboxReq) (s : State) : Out := .next (mboxCmd 0x11 configChunkOp m s)

/-- CONFIG_END (R293). -/
def execConfigEnd (m : MboxReq) (s : State) : Out := .next (mboxCmd 0x12 configEndOp m s)

/-- CONFIG_ACTIVATE (R301). -/
def execConfigActivate (m : MboxReq) (s : State) : Out := .next (mboxCmd 0x13 configActivateOp m s)

/-- CONFIG_STORE (R295). -/
def execConfigStore (m : MboxReq) (s : State) : Out := .next (mboxCmd 0x14 configStoreOp m s)

/-- SESSION_TIMEOUT (R294). -/
def execSessionTimeout (s : State) : Out := .next (sessionTimeout s)

/-- AUTOLOAD (R311). -/
def execAutoload (s : State) : Out := .next (autoloadOp s)

/-- COMMIT_ARM (R322). -/
def execCommitArm (m : MboxReq) (s : State) : Out := .next (commitCmd false m s)

/-- COMMIT_DISCARD (R322). -/
def execCommitDiscard (m : MboxReq) (s : State) : Out := .next (commitCmd true m s)

end Sys2Proof.Machine
end

