-- ==== Sys2Proof/Machine/Activate.lean ====
section
/-! DEFINITION. An activation from T0 to T1, the commit of a write group, the tables a tick switches to (R13, R24 steps 2 to 4,
R263, R275, R302 to R311, R318, R319, R323, R444). -/

namespace Sys2Proof.Machine

/-! ### What an image loads -/

/-- Whether a register belongs to a pin group. -/
def isGroupReg : RegName → Bool
  | .pgCfg => true
  | .pgTime => true
  | .pgWidth => true
  | .pgCmd => true
  | .pgSafeLo => true
  | .pgSafeHi => true
  | _ => false

/-- Whether a register belongs to a lane's egress channel. -/
def isChannelReg : RegName → Bool
  | .egCfg => true
  | .egTime => true
  | .egCmd => true
  | .egAux => true
  | _ => false

/-- Whether an image replaces a channel's configuration: EGRESS records on it, every channel for a full image (R309). -/
def chanLoaded (img : Image) (c : EgCh) : Bool :=
  img.full || img.regs.any fun x => match mappedReg x.2.1 with
    | none => false
    | some r => match c with
      | .pins g => isGroupReg r.name && r.i == g.val
      | .lane l k => isChannelReg r.name && r.i == l.val && r.j == k.val

/-- Whether an image loads a lane's configuration: any record on it, every lane for a full image (R310). -/
def laneLoaded (img : Image) (l : Nat) : Bool :=
  img.full || img.regs.any fun x => 0x600000 ≤ x.2.1 && x.2.1 < 0x640000 && x.2.1 / 0x2000 - 0x300 = l

/-- Whether an image carries a lane's INGEST records (R375). -/
def ingestLoaded (img : Image) (l : Nat) : Bool :=
  img.regs.any fun x => x.1 / 16 = 0xA && x.2.1 / 0x2000 - 0x300 = l

/-- Whether an image replaces the cells and routing of a region: its EDGE section, every region for a full image (R307). -/
def edgeReplaced (img : Image) (r : Nat) : Bool := img.full || img.regs.any fun x => x.1 = 16 * 0xC + r

/-- What an image leaves in a rail's register. -/
def railAfter (s : State) (img : Image) (n : Nat) : Word :=
  let r : Reg := ⟨.seg, 0, 224 + n⟩
  (recordedValue (fun _ => none) img.regs r).getD (if edgeReplaced img 0 then 0 else s.regR r)

/-- The rails that carry 0 from T0 to T1: driven from a region being loaded, or by a driver the image changes (R339). -/
def railsOff (s : State) (img : Image) : BitVec 32 :=
  (List.range 32).foldl (fun (v : BitVec 32) n =>
    let w := s.reg .seg 0 (224 + n)
    let drv := fld w 11 0
    let inside := match drv / 1024 with
      | 1 => regionsOf img (drv % 256 / 12)
      | 3 => regionsOf img (drv / 64 % 16)
      | _ => false
    if bit w 31 && inside || railAfter s img n ≠ w then setBit v n true else v) 0

/-! ### T0 (R302, R303, R309, R310) -/

/-- A pen that is being replaced stops: no entry, its reduction, repeat and run-ahead are cancelled, its substitution is
abandoned (R302, R447). -/
def stopReplaced (first : Nat) (s : State) : State :=
  (stopPen first false s).modPen first fun p => { p with entered := false, run := false, substPend := false, rejoinOk := false, substDone := false }

/-- Substitutions of logical folds that are replaced are abandoned (R302). -/
def abandonSubst (lfs : List Nat) (s : State) : State :=
  let h := s.hub
  let sub := match h.subst with
    | none => none
    | some x => if lfs.contains x.lf then none else some x
  let s' := { s with hub := { h with subst := sub, waiting := h.waiting.filter fun x => !(lfs.contains (s.fold x.1).lf) } }
  match h.subst with
  | none => s'
  | some x => if sub.isSome then s' else s'.modFold x.spare fun f => { f with power := .retain }

/-- The fields of a register that a load writes at T0 take their bits of a value: all but WS ones. FRAME.HOSTTICK holds nothing
(R284). -/
def loadValue (r : Reg) (w : Word) (s : State) : State :=
  let m := r.name.row.maskOf fun c => c == .rw || c == .wl || c == .wx
  if r.name.row.maskOf (· == .ws) ≠ 0 then s
  else match r.name with
    | .seg => s.setReg .seg r.i r.j (w &&& 0x80000FFF#32)
    | .hosttick => s
    | _ => s.setReg r.name r.i r.j ((s.regR r &&& ~~~m) ||| (w &&& m))

/-- The bits of a record that a load writes at T0 (R284). -/
def loadRecord (place : Nat → Option Nat) (x : RegRec) (s : State) : State :=
  match recReg place x with
  | none => s
  | some r => match r.name with
    | .probectl => (writeReg r x.2 s).2
    | .ptprate => (writeReg r x.2 s).2
    | .ptpstepLo => (writeReg r x.2 s).2
    | _ => loadValue r x.2 s

/-- The cells and routing of a replaced region start from their reset values: the drivers left are the image's (R299). -/
def clearRegion (r : Nat) (s : State) : State :=
  let s := (List.range 256).foldl (fun s j => s.setReg .seg r j 0) s
  (List.range 256).foldl (fun s c => (s.setReg .cellin (256 * r + c) 0 0).setReg .cellcfg (256 * r + c) 0 0) s

/-- The registers of INGEST, EGRESS, EDGE and PINS and the WS registers of REGISTERS that hold another value than at reset and that
a full image does not list: a full activation leaves the image's own values in force, so each goes back to its reset value (R296;
log entry 65). -/
def unlistedRegs (s : State) (img : Image) : List Reg :=
  if !img.full then []
  else s.regs.filterMap fun x => match mappedReg x.1 with
    | none => none
    | some r => guardOpt (blockOfReg r.name != .none && (blockOfReg r.name != .registers || r.name.row.maskOf (· == .ws) ≠ 0) &&
        (recordedValue (placeAfter s img) img.regs r).isNone) r

/-- The WL and WX records of an image, and the flip-flops at their INIT values (R284, R310). -/
def loadRegs (img : Image) (s : State) : State :=
  let pl := placeAfter s img
  let s := (unlistedRegs s img).foldl (fun s r => loadValue r r.name.row.rstVal s) s
  let s := ((List.range 16).filter (edgeReplaced img)).foldl (fun s r => clearRegion r s) s
  let s := img.regs.foldl (fun s x => loadRecord pl x.2 s) s
  let cells := (List.range 4096).filter fun c => regionsOf img (c / 256)
  { s with edge := { s.edge with ff := cells.foldl (fun v c => setBit v c (bit (s.reg .cellcfg c) 4)) s.edge.ff } }

/-- Regions, rails, pin groups and lanes go into the states of R310; queues of replaced channels are discarded (R309, R345,
R381). -/
def startLoad (img : Image) (s : State) : State :=
  let rails := railsOff s img
  let regions := (List.range 16).foldl (fun (v : BitVec 16) r => if regionsOf img r then setBit v r true else v) s.edge.loading
  let groups := (List.finRange 16).foldl (fun (v : BitVec 16) g => if chanLoaded img (.pins g) then setBit v g true else v)
    s.edge.grpLoad
  let s := (allChannels.filter (chanLoaded img)).foldl (fun s c =>
    if (s.egress c).queue.isEmpty then s else s.setEgress c { s.egress c with queue := [] }) s
  let s := (List.finRange 32).foldl (fun s l =>
    let ch := (List.finRange 4).foldl (fun (v : BitVec 4) k => if chanLoaded img (.lane l k) then setBit v k true else v) 0
    if laneLoaded img l || ch ≠ 0 then
      s.modLane l fun x => { x with loading := true, ingLoad := x.ingLoad || ingestLoaded img l, chLoad := x.chLoad ||| ch }
    else s) s
  { s with edge := { s.edge with loading := regions, grpLoad := groups, railOff := s.edge.railOff ||| rails } }

/-- An activation fails at T0: an autoload choice gives way to the next one (R302, R311). -/
def failT0 (e : ImgErr) (s : State) : State :=
  let i := s.ldr.actSlot
  let k := s.ldr.actAuto
  let s := { s with ldr := { s.ldr with act := .idle } }
  if k = 0 then rejectImage e s else tryAuto (2 - k) (k + 1) (autoFailed i e s)

/-- Whether this tick is T0 of the pending activation, the epoch having advanced (R302). -/
def State.isT0 (s : State) : Bool :=
  s.ldr.act == .pending && s.ldr.actArmed && s.ldr.actEpoch ≤ s.frame.epoch.toNat

/-- T0: the checks again, then the replaced pens stop and loading begins (R302, R303). -/
def activationT0 (s : State) : State :=
  let i := s.ldr.actSlot
  match judgeSlot s i .activated with
  | .inl e => failT0 e s
  | .inr img =>
    let rep := replacedPens s img
    let lfs := replacedLfs s img
    let rails := railsOff s img
    let s := abandonSubst lfs (rep.foldl (fun s p => stopReplaced p s) s)
    let s := loadRegs img (startLoad img s)
    { s with ldr := { s.ldr with act := .loading, load := some { img := img, digest := (s.slot i).digest, enc := (s.slot i).enc
                                                                 replaced := rep, rails := rails } }
             hub := { s.hub with loadRun := none } }

/-! ### Loading (R235, R283, R285, R303, R305, R306) -/

/-- Write a program's words into a fold: SYS HALT above ILEN, 0 above DLEN (R283). -/
def writeProgram (pf : Nat) (x : List (BitVec 14) × List Half) (s : State) : State :=
  s.setProgram pf .loaded (Store.listed haltWord (16384 * pf) (x.1.take 16384)) (Store.listed 0 (4096 * pf) (x.2.take 4096))

/-- A fold that was OFF comes back with its contents lost, to be loaded (R84). -/
def reviveFold (pf : Nat) (s : State) : State :=
  if (s.fold pf).power = .off then s.modFold pf fun f => { f with power := .retain } else s

/-- The alternate that the relocation table of a load names for a logical fold (R306, R317, R319). -/
def loadAlternate (s : State) (img : Image) (lf : Nat) : Option Nat :=
  ((if img.full then img.reloc else (s.ldr.inForce.getD {}).reloc)[lf]?).bind (·.2)

/-- The logical fold that an image places on a physical fold. -/
def loadedOn (s : State) (img : Image) (pf : Nat) : Option Nat := (lfsOf img.pens).find? fun lf => placeAfter s img lf == some pf

/-- Whether a load may use an alternate: it has not failed, and a partial image finds it a spare still. -/
def serves (s : State) (img : Image) (a : Nat) : Bool := if img.full then (s.fold a).role != .isolated else (s.fold a).role == .spare

/-- The alternates that logical folds take whose folds failed in a load (R306, R317; log entry 108). -/
def takenAlternates (s : State) (l : Loading) : List (Nat × Nat) :=
  l.failed.filterMap fun x =>
    match loadedOn s l.img x.1, x.2 with
    | some lf, some a => guardOpt (serves s l.img a) (lf, a)
    | _, _ => none

/-- Where a logical fold's program is written: its fold, or the alternate it takes where that has failed (R306). -/
def loadPlace (s : State) (l : Loading) (lf : Nat) : Option Nat :=
  match placeAfter s l.img lf with
  | none => none
  | some pf =>
    if (s.fold pf).role != .isolated then some pf
    else ((takenAlternates s l).find? (·.1 == lf)).map (·.2)

/-- Write the program of a pen of an image into the fold that a logical fold takes (R66, R303, R306). -/
def loadProgram (l : Loading) (lf : Nat) (s : State) : State :=
  match l.img.pens.find? fun p => p.first ≤ lf && lf < p.first + p.count with
  | none => s
  | some p => match (programsOf l.img).find? (·.1 == p.first), loadPlace s l lf with
    | some x, some pf => writeProgram pf x.2 (reviveFold pf s)
    | _, _ => s

/-- Clear every word of a bank with a valid code (R235). -/
def clearBank (b : Nat) (s : State) : State :=
  { s with mem := Store.dropRange s.mem (b * 0x80000) ((b + 1) * 0x80000)
           ecc := Store.dropRange s.ecc (b * 65536) ((b + 1) * 65536) }

/-- The loader brings a bank to ON, its hurdle open (R235). -/
def bringBank (b : Nat) (s : State) : State :=
  let k := s.bank b
  if k.failed || (k.power = .on && k.hurdle == .opened) then s
  else
    let s := if k.power = .off then clearBank b s else s
    openBank b s

/-- The banks a load of an image brings to ON: those of the logical folds it places; for a full image also those no logical
fold has, which no record can name (R235, R285). -/
def banksLoaded (s : State) (img : Image) : List Nat :=
  let lfs := lfsOf img.pens
  let named := (lfs.filter fun lf => bankAfter s img lf = 2).filterMap fun lf =>
    if img.full then placeAfter s img lf else s.bankOf lf
  if img.full then named ++ (List.range 272).filter fun b => (lfAfter s img b).isNone else named

/-- A PASTURE_INIT record (R285). -/
def pastureInit (r : Nat × Nat × Bool × List Byte) (s : State) : State :=
  (List.range (r.2.1 / 8)).foldl (fun s k =>
    let a := r.1 + 8 * k
    bankStore (a / 0x80000) (a % 0x80000 / 8) (BitVec.ofNat 64 (leAt r.2.2.2 (8 * k) 8)) s) s

/-- The SUBST segment records of a logical fold (R300, R318). -/
def patchFold (lf : Nat) (s : State) : State :=
  match s.ldr.inForce with
  | none => s
  | some f => match f.subst.find? (·.lf == lf) with
    | none => s
    | some x =>
      let owner := match s.penOf lf with
        | none => 0
        | some p => 256 + p.cfg.first
      x.segs.foldl (fun s g => patchSegment owner g s) s

/-- Undo the SUBST segment records of a logical fold, the last first: what it enabled is disabled, what it disabled is enabled
again (R319; log entry 90). -/
def unpatchFold (lf : Nat) (s : State) : State :=
  match s.ldr.inForce with
  | none => s
  | some f => match f.subst.find? (·.lf == lf) with
    | none => s
    | some x =>
      let owner := match s.penOf lf with
        | none => 0
        | some p => 256 + p.cfg.first
      x.segs.reverse.foldl (fun s g => patchSegment owner (g.1, !g.2.1, g.2.2) s) s

/-- The logical folds that stand on another fold than their bank's: those on spares. -/
def State.onSpare (s : State) (lf : Nat) : Bool := s.pfOf lf != s.bankOf lf

/-- Write one FOLD_ROUTING driver of a partial image, under the guard (R300). -/
def addDriver (x : SegDrv) (s : State) : State := patchSegment x.owner (x.seg, true, x.drv) s

/-- The routing of a partial image replaces that of the replaced pens, and their patches (R307, R319). -/
def loadRouting (img : Image) (rep : List Nat) (s : State) : State :=
  let s := (((lfsOf img.pens).filter s.onSpare)).foldl (fun s lf => unpatchFold lf s) s
  match s.ldr.inForce with
  | none => s
  | some f =>
    let f := { f with routing := f.routing.filter fun x => !(rep.contains (x.owner % 256)) }
    img.routing.foldl (fun s x => addDriver x s) { s with ldr := { s.ldr with inForce := some f } }

/-- The tick requests of an image's HOSTTICK records (R18, R284). -/
def loadTicks (img : Image) (s : State) : State :=
  img.regs.foldl (fun s x => match mappedReg x.2.1 with
    | some ⟨.hosttick, _, _⟩ => if bit x.2.2 0 then tickRequest 3 s else s
    | _ => s) s

/-- The loader has read everything: programs, banks, pasture, routing (R303). -/
def loadGood (l : Loading) (s : State) : State :=
  let img := l.img
  let s := (lfsOf img.pens).foldl (fun s lf => loadProgram l lf s) s
  let s := (banksLoaded s img).foldl (fun s b => bringBank b s) s
  let s := img.pinit.foldl (fun s r => pastureInit r s) s
  let s := loadTicks img (if img.full then s else loadRouting img l.replaced s)
  { s with ldr := { s.ldr with load := some { l with complete := true } } }

/-- A full activation makes every fold a spare but those it places and the isolated ones, and resets every mark (R306, R319). -/
def clearRoles (s : State) : State :=
  (List.range 272).foldl (fun s pf => s.modFold pf fun f =>
    { f with role := if f.role = .isolated then .isolated else .spare, lf := 0, lost := false, subst := false }) s

/-- After a failed full activation no configuration is in force and the module is READY, from the next tick on (R305, R434); none was loaded
by autoload then (HUB.BOOTSTAT). The routers keep their tables until the tick (R263). -/
def dropConfig (s : State) : State :=
  let s := clearRoles s
  let s := { s with arr := { s.arr with pens := [], place := [], home := [] }
                    edge := { s.edge with loading := 0, grpLoad := 0, railOff := 0 } }
  let s := (List.range 32).foldl (fun s l => s.modLane l fun x => { x with loading := false, ingLoad := false, chLoad := 0 }) s
  { s.setRf .bootstat 0 24 22 0 with
    ldr := { s.ldr with inForce := none, stopped := [], load := none }
    hub := { s.hub with wantRun := false, nextRun := none, loadRun := none, nextPower := [], encrypted := false } }

/-- What a loading failure shows: the re-read digest or the page differs, a SECTION_CRC failure without a section (R305). -/
def loadErr : ImgErr := ⟨stCheckFail, 3, 0, noSec⟩

/-- Loading fails: FAILED, CONFIG_REJECT, the Cairn; a full image leaves nothing in force, a partial one leaves its pens stopped;
autoload goes on to its next choice (R305, R311). -/
def loadBad (l : Loading) (s : State) : State :=
  let k := s.ldr.actAuto
  let s := { s with ldr := { s.ldr with act := .failed } }
  let s := cairnConfig s.ldr.actSlot loadErr l.digest (rejectImage loadErr s)
  let s := if l.img.full then dropConfig s
    else { s with ldr := { s.ldr with stopped := s.ldr.stopped ++ l.replaced.filter (fun p => !(s.ldr.stopped.contains p))
                                      load := none } }
  if k = 0 then s else tryAuto (2 - k) (k + 1) s

/-- LOADING_DONE: loading ends, well or not; a halted module loads nothing (R303 to R305, R420, R431). -/
def loadingDone (good : Bool) (s : State) : State :=
  match s.ldr.load with
  | none => s
  | some l => if s.ldr.act != .loading || l.complete || s.mode == .halted then s else if good then loadGood l s else loadBad l s

/-! ### Committing WS fields (R13, R284, R323, R345, R347, R356) -/

/-- De-energise a pin group's pins (R342). -/
def releaseGroup (g : Nat) (s : State) : State :=
  (groupPins s g).foldl (fun s p => releasePin p s) s

/-- A WS field takes its new value, with what its block does at a commit. -/
def commitReg (r : Reg) (w : Word) (s : State) : State :=
  let ws := r.name.row.maskOf (· == .ws)
  let old := s.regR r
  let s := s.setReg r.name r.i r.j ((old &&& ~~~ws) ||| (w &&& ws))
  let new := s.regR r
  match r.name with
  | .encCfg => s.setEnc r.i { s.enc r.i with rem := 0, debt := 0 }
  | .pgCfg => if bit new 31 then s else releaseGroup r.i s
  | .pinOut => if fld new 15 14 = 1 && !(bit (s.reg .pgCfg (fld new 11 8)) 31) then releasePin r.i s else s
  | .laneCfg => if (bit old 31 && !(bit new 31)) || (old ^^^ new) &&& 0x6C000000#32 ≠ 0 then resetLane r.i s else s
  | _ => s

/-! ### T1 (R304, R306, R308, R319, R444) -/

/-- A pen as an image places it: it owes a restore (R48). -/
def newPen (img : Image) (p : PenCfg) : Pen :=
  { cfg := p, restoreOwed := true
    recorded := match recorded img.power 0 p.first with
      | some 0 => .off
      | some 1 => .retain
      | _ => .on }

/-- Put a pen in the order of first logical folds. -/
def putPen (p : Pen) : List Pen → List Pen
  | [] => [p]
  | q :: t => if p.cfg.first < q.cfg.first then p :: q :: t else q :: putPen p t

/-- Whether a PASTURE_INIT record covers either checkpoint buffer of a logical fold (R308). -/
def bufferInit (img : Image) (c : PenCfg) (b : Nat) : Bool :=
  img.pinit.any fun r => 0 < r.2.1 && rangesMeet r.1 r.2.1 (b * 0x80000 + 512 * c.ckslot) (1024 * c.carried)

/-- The valid buffer of a logical fold at T1 (R308). -/
def keepBuffer (old : Option PenCfg) (img : Image) (c : PenCfg) (b : Nat) : Bool :=
  match old with
  | none => false
  | some o => o.carried = c.carried && o.cbase = c.cbase && o.ckslot = c.ckslot && !(bufferInit img c b)

/-- A member becomes LOST, with its record and the reason: no alternate, one taken, one that failed (R445, R451). -/
def markLost (pf why : Nat) (s : State) : State :=
  let lf := (s.fold pf).lf
  let s := s.modFold pf fun f => { f with lost := true }
  cairnWrite 0x32 pf (leBytes 1 lf ++ leBytes 1 why) false true s

/-- Why an alternate named by a relocation table does not serve (R445, R451). -/
def lostReason (s : State) (alt : Option Nat) : Nat :=
  match alt with
  | none => 0
  | some a => if (s.fold a).role = .isolated then 2 else 1

/-- Place a logical fold on a physical fold (R319). -/
def placeFold (lf pf : Nat) (s : State) : State :=
  let s := s.modFold pf fun f => { f with role := .active, lf := lf, subst := false }
  { s with arr := { s.arr with place := Store.set s.arr.place 0 lf (pf + 1) } }

/-- The WS registers of one fold go to another: those of a logical fold follow it, so that the members of its pen still agree
(R87, R170, R323; log entry 89). -/
def moveFoldRegs (src dst : Nat) (s : State) : State :=
  [RegName.seqcfg, .faultcfg, .racfg].foldl (fun s n => s.setReg n dst 0 (s.reg n src)) s

/-- A logical fold takes the alternate of a fold that failed in a load, with its program (R66, R306). -/
def takeAlternate (l : Loading) (lf pf a : Nat) (s : State) : State :=
  placeFold lf a (moveFoldRegs pf a (loadProgram l lf s))

/-- Where an image places a logical fold at T1: a fold found failed gives way to its alternate, or is LOST (R306). -/
def fixPlace (l : Loading) (lf : Nat) (s : State) : State :=
  let img := l.img
  match placeAfter s img lf with
  | none => s
  | some pf =>
    let iso := (s.fold pf).role == .isolated
    let s := if img.full then { s with arr := { s.arr with home := Store.set s.arr.home 0 lf (pf + 1) } } else s
    if !iso then (if img.full then placeFold lf pf s else s)
    else match loadPlace s l lf with
      | some a => takeAlternate l lf pf a s
      | none =>
        if (s.fold pf).lost && !img.full then s
        else
          let s := { s with arr := { s.arr with place := Store.set s.arr.place 0 lf (pf + 1) } }
          markLost pf (lostReason s (loadAlternate s img lf)) (s.modFold pf fun f => { f with lf := lf })

/-- The long links of a fold as the routing in force gives them (R70, R298). -/
def linkFold (lf : Nat) (s : State) : State :=
  match s.pfOf lf, s.ldr.inForce with
  | some pf, some f =>
    let l := f.routing.map fun x => (x.seg, x.drv, x.owner)
    s.modFold pf fun x => { x with lnsrc := Config.longSource l lf true, lesrc := Config.longSource l lf false }
  | _, _ => s

/-- The long links of every fold. -/
def linkFolds (s : State) : State := (List.range 256).foldl (fun s lf => linkFold lf s) s

/-- The alternate a logical fold has: in force, still a spare and not taken in a load, and for a pen of one member not that of a lower one
(R73, R317, R318, R444). -/
def State.alternate (s : State) (lf : Nat) : Option Nat :=
  match s.ldr.inForce with
  | none => none
  | some f =>
    match (f.reloc[lf]?).bind (·.2) with
    | none => none
    | some a =>
      let one := fun k => match s.penOf k with
        | none => false
        | some p => p.cfg.count = 1
      let taken := match s.ldr.load with
        | none => false
        | some l => l.failed.any (·.2 == some a)
      if (s.fold a).role != .spare || taken then none
      else if one lf && (List.range lf).any (fun k => one k && (f.reloc[k]?).bind (·.2) == some a) then none
      else some a

/-- The loader writes the images of pens of one member into their alternates (R444). -/
def loadSpares (s : State) : State :=
  match s.ldr.inForce with
  | none => s
  | some f => s.arr.pens.foldl (fun s p =>
      if p.cfg.count ≠ 1 then s
      else match s.alternate p.cfg.first, f.programs.find? (·.1 == p.cfg.first) with
        | some a, some x => if (s.fold a).power = .retain then writeProgram a x.2 s else s
        | _, _ => s) s

/-- The recorded state that a POWER record's code gives. -/
def powerOf (x : BitVec 2) : Power := if x = 2 then .on else if x = 1 then .retain else .off

/-- The recorded states of banks, engines and the module that an image sets; a module record accepted since T0 is applied over the
image's (R285, R304, R435). -/
def recordPower (img : Image) (s : State) : State :=
  let lfs := lfsOf img.pens
  let s := if img.full then
      let s := (List.range 272).foldl (fun s b => s.modBank b fun k => { k with recorded := .on }) s
      let s := (List.range 32).foldl (fun s e => s.modEng e fun g => { g with
        recorded := match recorded img.power 2 e with
          | some x => powerOf x
          | none => .on }) s
      { s with hub := { s.hub with wantRun := s.hub.loadRun.getD (recorded img.power 3 0 == some 1), loadRun := none } }
    else s
  lfs.foldl (fun s lf => match s.bankOf lf with
    | none => s
    | some b => s.modBank b fun k => { k with
        recorded := match recorded img.power 1 lf with
          | some x => powerOf x
          | none => .on }) s

/-- The region in which the driver of a rail lies, none for a special source (R329). -/
def railRegion (w : Word) : Option Nat :=
  match fld w 11 0 / 1024 with
  | 1 => some (fld w 11 0 % 256 / 12)
  | 3 => some (fld w 11 0 / 64 % 16)
  | _ => none

/-- The rails that still carry 0 once a load has ended: those of a load that failed before, where neither this load has changed their driver
nor their registers, which lie in region 0; and those driven from a region that is still being loaded (R305, R310, R339). -/
def railsLeft (img : Image) (rails : BitVec 32) (loading : BitVec 16) (s : State) : BitVec 32 :=
  (List.range 32).foldl (fun v n =>
    let inside := match railRegion (s.reg .seg 0 (224 + n)) with
      | none => false
      | some r => bit loading r
    if bit v n && !inside && (bit rails n || regionsOf img 0) then setBit v n false else v) s.edge.railOff

/-- Items being loaded are released at T1; a replaced channel starts afresh, its pins de-energised (R36, R304, R310). -/
def releaseLoad (img : Image) (rails : BitVec 32) (s : State) : State :=
  let s := (List.finRange 16).foldl (fun s g => if chanLoaded img (.pins g) then
      (releaseGroup g s).setEgress (.pins g) {} else s) s
  let s := (List.finRange 32).foldl (fun s l =>
    let s := (List.finRange 4).foldl (fun s k => if chanLoaded img (.lane l k) then s.setEgress (.lane l k) {} else s) s
    if laneLoaded img l then s.modLane l fun x => { x with loading := false, ingLoad := false, chLoad := 0 } else s) s
  let keep := fun (v : BitVec 16) (g : Nat → Bool) => (List.range 16).foldl (fun v r => if g r then setBit v r false else v) v
  let loading := keep s.edge.loading (regionsOf img)
  let grp := keep s.edge.grpLoad fun g => if h : g < 16 then chanLoaded img (.pins ⟨g, h⟩) else false
  { s with edge := { s.edge with loading := loading, grpLoad := grp, railOff := railsLeft img rails loading s } }

/-- The WS records of an image commit, and for a full one the reset values of the WS registers it does not list (R284, R296,
R304). -/
def commitRecords (img : Image) (s : State) : State :=
  let s := (unlistedRegs s img).foldl (fun s r =>
    if r.name.row.maskOf (· == .ws) = 0 then s else commitReg r r.name.row.rstVal s) s
  let s := img.regs.foldl (fun s x => match recReg s.pfOf x.2 with
    | none => s
    | some r => if r.name.row.maskOf (· == .ws) = 0 then s else commitReg r x.2.2 s) s
  match img.period with
  | none => s
  | some p => commitReg ⟨.period, 0, 0⟩ (BitVec.ofNat 32 p) s

/-- T1: the new configuration is in force (R304, R306, R308, R319). -/
def activationT1 (l : Loading) (s : State) : State :=
  let img := l.img
  let i := s.ldr.actSlot
  let auto := s.ldr.actAuto
  let old := fun lf => (s.penOf lf).map (·.cfg)
  let f := inForceAfter s img l.digest l.enc
  let f := if img.full then { f with slot := some i } else { f with routing := (s.ldr.inForce.getD {}).routing }
  let kept := s.arr.pens.filter fun p => !(l.replaced.contains p.cfg.first)
  let pens := img.pens.foldl (fun ps p => putPen (newPen img p) ps) kept
  let s := if img.full then clearRoles s else s
  let s := (lfsOf img.pens).foldl (fun s lf => fixPlace l lf s) s
  let s := (lfsOf img.pens).foldl (fun s lf => match s.pfOf lf with
    | none => s
    | some pf => s.modFold pf fun f => { f with subst := false }) s
  let s := { s with arr := { s.arr with pens := pens }
                    ldr := { s.ldr with inForce := some f, act := .idle, load := none, actAuto := 0, autoFails := []
                                        stopped := s.ldr.stopped.filter fun p => !(l.replaced.contains p) }
                    hub := { s.hub with encrypted := f.enc } }
  let s := img.pens.foldl (fun s p => (List.range p.count).foldl (fun s k =>
    let lf := p.first + k
    let b := (s.bankOf lf).getD 0
    let v := keepBuffer (old lf) img p b && s.validBuf1 lf
    { s with arr := { s.arr with buf1 := Store.set s.arr.buf1 false lf v } }) s) s
  let s := recordPower img (commitRecords img s)
  let s := loadSpares (linkFolds (releaseLoad img l.rails s))
  let s := if img.full then
      s.setRf .bootstat 0 24 22 (if auto = 0 then 0 else 4 + i.val)
    else s
  fire 9 (256 * (!img.full).toNat + i.val) s

/-! ### The write group at a tick (R13, R323, R324) -/

/-- Whether an activation at this tick replaces what a register belongs to (R24 step 3, R323). -/
def replacedReg (img : Image) (lfs : List Nat) (s : State) (r : Reg) : Bool :=
  if isFoldReg r then img.full || (match s.penOfFold r.i with
    | none => false
    | some p => p.members.any lfs.contains)
  else
    match r.name with
    | .cellin => regionsOf img (regionOf r)
    | .cellcfg => regionsOf img (regionOf r)
    | .seg => regionsOf img (regionOf r)
    | .pinCfg => regionsOf img (regionOf r)
    | .pinOut => regionsOf img (regionOf r)
    | _ => false

/-- Why an armed group is rejected: the lowest code (R323). -/
def groupCheck (ov : Bool) (done : Option Image) (l : List RegRec) (s : State) : Nat :=
  let hit := match done with
    | none => false
    | some img => l.any fun x => match mappedReg x.1 with
      | none => false
      | some r => replacedReg img (lfsOf img.pens) s r
  if ov then 1
  else if hit then 2
  else match wholeChecks (afterGroup s l) with
    | none => 0
    | some x => x.1

/-- Decide the armed group: it commits whole, or it is rejected whole; one armed in the tick's own cycle waits for the next tick
(R13, R25, R323, R324). -/
def decideGroup (done : Option Image) (s : State) : State :=
  match s.ldr.armed with
  | none => s
  | some (n, l, ov) =>
    if s.ldr.armedAt = s.frame.time then s
    else
    let s := { s with ldr := { s.ldr with armed := none } }
    let c := groupCheck ov done l s
    let s := s.setRf .wgSeq 0 15 0 n
    if c ≠ 0 then
      fire 11 (65536 * c + n) ((s.setRf .wgStatus 0 29 28 2).setRf .wgStatus 0 27 24 c)
    else
      let s := (s.setRf .wgStatus 0 29 28 (if l.isEmpty then 3 else 1)).setRf .wgStatus 0 27 24 0
      l.foldl (fun s x => match mappedReg x.1 with
        | none => s
        | some r => commitReg r x.2 s) s

/-! ### The tables of the new epoch (R263, R275, R316, R318) -/

/-- The table set that bridge status chooses: that of the bridge lost last whose pair still has the other and whose set is in
force (R275, R316). -/
def chosenSet (s : State) : Nat :=
  match s.ldr.inForce with
  | none => 0
  | some f =>
    match s.dw.order.find? fun b => !(bit s.dw.lost (b ^^^ 1)) && f.alts.any (·.num == b + 1) with
    | none => 0
    | some b => b + 1

/-- The tables the routers switch to: the chosen set under the SUBST blocks of the folds that have rejoined (R263, R318). -/
def newTables (s : State) : TabSet :=
  match s.ldr.inForce with
  | none => ⟨0, [], []⟩
  | some f =>
    let k := chosenSet s
    let t := setTables f k
    f.patched.foldl (fun t lf => match f.subst.find? (·.lf == lf) with
      | none => t
      | some x => { t with blocks := mergeBlocks t.blocks ((x.blocks.filter (·.1 == k)).map (·.2)) }) t

/-! ### The commands -/

/-- LOADING_DONE (R304). -/
def execLoadingDone (good : Bool) (s : State) : Out := .next (loadingDone good s)

end Sys2Proof.Machine
end

