-- ==== Sys2Proof/Machine/Subst.lean ====
section
/-! DEFINITION. Failed folds: isolation, spare substitution, LOST members (R79, R442 to R447). -/

namespace Sys2Proof.Machine

/-! ### Substitution -/

/-- Whether an activation between T0 and T1 replaces a pen. -/
def State.beingReplaced (s : State) (first : Nat) : Bool :=
  match s.ldr.load with
  | none => false
  | some l => l.replaced.contains first

/-- Set STATUS.SUBST of every member of a pen. -/
def markSubst (p : Pen) (b : Bool) (s : State) : State :=
  (s.memberFolds p).foldl (fun s pf => s.modFold pf fun f => { f with subst := b }) s

/-- Why a logical fold without a usable alternate loses its member; for a pen of one member a spare that serves a lower one is
no alternate (R444, R445, R451). -/
def State.lossReason (s : State) (lf : Nat) : Nat :=
  match s.ldr.inForce with
  | none => 0
  | some f =>
    let alt := fun k => (f.reloc[k]?).bind (·.2)
    let one := fun k => match s.penOf k with
      | none => false
      | some p => p.cfg.count = 1
    if one lf && (List.range lf).any (fun k => one k && (alt lf).isSome && alt k == alt lf) then 0 else lostReason s (alt lf)

/-- A member becomes LOST; its pen resumes at the next tick (R39, R445). -/
def loseMember (pf why : Nat) (s : State) : State :=
  let s := match s.penOfFold pf with
    | none => s
    | some p => s.modPen p.cfg.first fun n => { n with newLost := true }
  markLost pf why s

/-- When steps 2, 3 and 4 of a substitution end, within the bounds of R443: free values (log entry 48). -/
def stepEnds (s : State) : Vector Nat 3 × State :=
  let d := s.draw 48
  let e2 := fld d.1 15 0 % 3001
  let e3 := e2 + fld d.1 31 16 % (5001 - e2)
  (#v[e2, e3, e3 + fld d.1 47 32 % (13001 - e3)], d.2)

/-- The hub turns to a failed fold: substitution starts and the spare wakes, or the member is LOST (R443 to R445, R447). -/
def startSubst (pf since : Nat) (s : State) : State :=
  match s.penOfFold pf with
  | none => s
  | some p =>
    if s.beingReplaced p.cfg.first then s
    else
      let lf := (s.fold pf).lf
      match s.alternate lf with
      | none => loseMember pf (s.lossReason lf) s
      | some a =>
        let (ends, s) := stepEnds (s.modFold a fun f => { f with power := .waking })
        { s with hub := { s.hub with subst := some ⟨pf, lf, a, since, ends⟩ } }

/-- The folds that wait, one at a time until a substitution runs (R445). -/
def serveWaiting : List (Nat × Nat) → State → State
  | [], s => { s with hub := { s.hub with waiting := [] } }
  | x :: t, s =>
    if s.hub.subst.isSome then { s with hub := { s.hub with waiting := x :: t } } else serveWaiting t (startSubst x.1 s.frame.time s)

/-- The end of a substitution: the next fold that waits. -/
def nextSubst (s : State) : State :=
  let w := s.hub.waiting
  serveWaiting w { s with hub := { s.hub with subst := none } }

/-- Whether a substitution of a pen runs or waits. -/
def State.substBusy (s : State) (p : Pen) : Bool :=
  let mine := fun lf => p.cfg.first ≤ lf && lf < p.cfg.first + p.cfg.count
  (match s.hub.subst with
   | none => false
   | some x => mine x.lf) || s.hub.waiting.any fun x => mine (s.fold x.1).lf

/-! ### Isolation (R442) -/

/-- The fold goes behind its hurdle and powers down. -/
def isolateOne (pf : Nat) (s : State) : State :=
  (wipeFold pf s).modFold pf fun f => { f with power := .off, role := .isolated, hurdle := .closed }

/-- Whether an alternate is taken by a fold that failed before: in the load, or of a pen that stays, whose substitution runs or waits
(R317). -/
def claimed (s : State) (l : Loading) (a : Nat) : Bool :=
  l.failed.any (·.2 == some a) ||
  (match s.hub.subst with
   | none => false
   | some x => x.spare == a) ||
  s.hub.waiting.any fun x => s.alternate (s.fold x.1).lf == some a

/-- A fold of a replaced pen is found failed while a load runs: it takes its alternate, where no fold that failed before has it (R306,
R317). -/
def failsInLoad (pf : Nat) (s : State) : State :=
  match s.ldr.load with
  | none => s
  | some l =>
    let a := match (loadedOn s l.img pf).bind (loadAlternate s l.img) with
      | none => none
      | some a => guardOpt (serves s l.img a && !(claimed s l a)) a
    { s with ldr := { s.ldr with load := some { l with failed := l.failed ++ [(pf, a)] } } }

/-- A fold that is treated as failed is isolated: its pen stops, its members read SUBST = 1, and substitution starts or waits
(R442, R445, R447). -/
def isolate (pf : Nat) (s : State) : State :=
  let s := { s with arr := { s.arr with failed := s.arr.failed.filter (· != pf) } }
  match s.penOfFold pf with
  | none => isolateOne pf s
  | some p =>
    if s.beingReplaced p.cfg.first then isolateOne pf (failsInLoad pf s)
    else
      let s := isolateOne pf (stopPen p.cfg.first true s)
      let s := s.modPen p.cfg.first fun n => { n with substPend := true, completed := false }
      let s := markSubst p true s
      if s.hub.subst.isSome then { s with hub := { s.hub with waiting := s.hub.waiting ++ [(pf, s.frame.time)] } }
      else startSubst pf s.frame.time s

/-- FOLD_ISOLATION: the hub decides on a fold that a check has found failed. -/
def foldIsolation (pf : Nat) (s : State) : State := if s.arr.failed.contains pf then isolate pf s else s

/-! ### The end of a substitution (R443 to R446) -/

/-- Copy program memory and D-space from one fold to another. -/
def copyProgram (src dst : Nat) (s : State) : State :=
  let is := s.arr.ispace.filter fun p => p.1 / 16384 == src
  let ds := s.arr.dspace.filter fun p => p.1 / 4096 == src
  s.setProgram dst (s.fold src).fill (is.map fun p => (16384 * dst + p.1 % 16384, p.2))
    (ds.map fun p => (4096 * dst + p.1 % 4096, p.2))

/-- The member whose memories a spare receives: the lowest-numbered other one that is ON with its hurdle open (R444). -/
def copySource (s : State) (p : Pen) (lf : Nat) : Option Nat :=
  (p.members.filter (· != lf)).findSome? fun k => match s.pfOf k with
    | none => none
    | some q => guardOpt ((s.fold q).power == .on && (s.fold q).hurdle == .opened) q

/-- A substitution completes: the logical fold moves to the spare, with its WS registers, so that its pen's members still agree
(R87, R170, R443 steps 3 to 5, R444; log entry 89). -/
def completeSubst (us : Nat) (x : Subst) (s : State) : State :=
  match s.penOf x.lf with
  | none => nextSubst s
  | some p =>
    let s := match copySource s p x.lf with
      | none => s
      | some q => if p.cfg.count = 1 then s else copyProgram q x.spare s
    let s := (placeFold x.lf x.spare (moveFoldRegs x.pf x.spare s)).modFold x.pf fun f => { f with subst := false }
    let s := s.modPen p.cfg.first fun n => { n with substDone := true, rejoinOk := false }
    let s := (openFold x.spare s).modFold x.spare fun f => { f with subst := true }
    let s := fire 14 0 (patchFold x.lf s)
    let s := cairnWrite 0x31 x.spare (leBytes 2 x.pf ++ leBytes 1 x.lf ++ [0] ++ leBytes 4 us) false true s
    let s := s.count .hubSubst 0 7 0 1
    nextSubst (loadSpares (linkFolds s))

/-- A substitution fails with its spare: the member is LOST; a spare that failed a check is isolated (R445). -/
def failSubst (check : Option (Fin 3)) (x : Subst) (s : State) : State :=
  let s := match check with
    | none => s.modFold x.spare fun f => { f with power := .retain }
    | some k => isolateOne x.spare (faultFold x.spare (s.raise .faultstat x.spare (setBit 0#32 (k.val + 1) true)))
  nextSubst (loseMember x.pf 2 s)

/-- SPARE_SUBSTITUTED: what happens at the end of a substitution happens in one cycle (R402). -/
def spareSubstituted (us : Nat) (fate : SpareFate) (s : State) : State :=
  match s.hub.subst with
  | none => s
  | some x => match fate with
    | .complete => inOneCycle (completeSubst us x) s
    | .noWake => inOneCycle (failSubst none x) s
    | .failed k => inOneCycle (failSubst (some k) x) s

/-! ### Heartbeats (R79) -/

/-- HEARTBEAT. -/
def heartbeat (pf : Nat) (s : State) : State :=
  if (s.fold pf).power = .on then s.modFold pf fun f => { f with beat := true } else s

/-- HEARTBEAT_MISSED: at frame cycle 2,000 an ON fold's heartbeat has not arrived; a module in hold expects none (R79, R80,
R516). -/
def heartbeatMissed (pf : Nat) (s : State) : State :=
  if !s.frame.ticked || s.frame.hold || (s.fold pf).power != .on || (s.fold pf).beat then s
  else
    let s := advanceTo 2000 s
    foldFails pf (faultFold pf (s.raise .faultstat pf 8#32))

/-! ### The commands -/

/-- FOLD_ISOLATION (R442). -/
def execFoldIsolation (pf : Fin 272) (s : State) : Out := .next (foldIsolation pf s)

/-- SPARE_SUBSTITUTED (R443). -/
def execSpareSubstituted (us : Word) (fate : SpareFate) (s : State) : Out := .next (spareSubstituted us.toNat fate s)

/-- HEARTBEAT (R79). -/
def execHeartbeat (pf : Fin 272) (s : State) : Out := .next (heartbeat pf s)

/-- HEARTBEAT_MISSED (R79). -/
def execHeartbeatMissed (pf : Fin 272) (s : State) : Out := .next (heartbeatMissed pf s)

end Sys2Proof.Machine
end

