-- ==== Sys2Proof/Machine/Frame.lean ====
section
/-! DEFINITION. The frame: tick sources, hold, missed ticks, the ordered actions of a tick, stages and deadlines, the guard band, wakes,
the SYNC chain (R14 to R52, R76, R83, R235, R263, R273, R434 to R436, R440, R446). -/

namespace Sys2Proof.Machine

/-! ### Ticks that fall due (R15 to R24) -/

/-- Whether the module takes ticks (R17, R431, R434). -/
def State.ticks (s : State) : Bool :=
  s.frame.ticked && (s.mode == .ready || s.mode == .run || s.mode == .shed) && !s.edge.halted

/-- Whether a tick is due at cycle P: one is requested, or the frame timer is the source (R15, R18). -/
def State.tickDue (s : State) : Bool := s.ticks && (s.frame.held || s.rf .tickcfg 0 2 0 = 0)

/-- HOLD: cycle P passes with no tick request held (R16). -/
def holdOp (s : State) : State :=
  if !s.ticks || s.tickDue || s.frame.hold then s
  else
    let s := advanceTo s.period s
    { s with frame := { s.frame with hold := true } }

/-- TICK_MISSED: no tick request is held at cycle P + WAIT; the frame timer substitutes one, or the module waits on (R21, R303). -/
def missOp (s : State) : State :=
  if !s.ticks || s.frame.held || !s.frame.hold || s.frame.missed then s
  else
    let s := advanceTo (s.period + s.rf .tickwait 0 29 0) s
    let s := fire 0 0 (s.count .tickstat 0 31 16 1)
    let sub := s.rf .tickcfg 0 5 4 = 0 || s.ldr.load.isSome
    { s with frame := { s.frame with missed := true, held := sub, subst := sub }, hub := { s.hub with missedNow := true } }

/-- The ACLK cycles until a lane's PTP clock reaches a time in nanoseconds; none are left for a time that the clock has passed
within the last half of its range (R19, R369; log entry 88). -/
def ptpWait (s : State) (l t : Nat) : Nat :=
  let gap := (t * 2 ^ 32 + 2 ^ 96 - ptpNow s l) % 2 ^ 96
  if 2 ^ 95 ≤ gap then 0 else (gap + ptpRate s l - 1) / ptpRate s l

/-- PTP_COMPARE: the PTP clock of the selected lane reaches FRAME.LTNEXT (R19). -/
def ptpCompare (s : State) : State :=
  let l := s.rf .tickcfg 0 12 8
  if s.rf .tickcfg 0 2 0 ≠ 2 || !(s.etherLane l) then s
  else
    let s := advanceTime (s.frame.time + ptpWait s l (addr64 (s.reg .ltnextLo) (s.reg .ltnextHi))) s
    let n := (addr64 (s.reg .ltnextLo) (s.reg .ltnextHi) + s.rf .ltintv 0 29 0) % 2 ^ 64
    let s := (s.setReg .ltnextLo 0 0 (BitVec.ofNat 32 n)).setReg .ltnextHi 0 0 (BitVec.ofNat 32 (n / 2 ^ 32))
    tickRequest 2 s

/-! ### The SYNC chain (R49 to R52, R349, R350) -/

/-- One bit of a CRC with polynomial 0x07, most significant bit first. -/
def crc8Bit (c : Nat) : Nat := if 128 ≤ c then (2 * c % 256) ^^^ 0x07 else 2 * c

/-- The CRC-8 of an EPOCH symbol (R349). -/
def crc8 (l : List Byte) : Nat := l.foldl (fun c b => (List.range 8).foldl (fun a _ => crc8Bit a) (c ^^^ b.toNat)) 0

/-- The characters of an EPOCH symbol (R349). -/
def epochChars (e : BitVec 48) (crc : Byte) : List Byte := [0xFB] ++ leBytes 6 e.toNat ++ [crc]

/-- Repeat a symbol onto SYNC_OUT, on a follower whose output is enabled (R50). -/
def repeatSymbol (l : List Byte) (s : State) : State :=
  if bit (s.reg .synccfg) 8 && s.rf .synccfg 0 3 0 ≠ 0 then s.emit (.sync l) else s

/-- Send a symbol of the head (R50). -/
def headSymbol (l : List Byte) (s : State) : State :=
  if bit (s.reg .synccfg) 8 && s.rf .synccfg 0 3 0 = 0 then s.emit (.sync l) else s

/-- How long a module delays its own tick for the followers of its chain, in ACLK cycles (R50). -/
def chainDelay (s : State) : Nat := 40 * (s.rf .synccfg 0 7 4 - s.rf .synccfg 0 3 0)

/-- How long after a symbol has reached SYNC_IN it is repeated, in ACLK cycles (R350). -/
def repeatDelay (s : State) : Nat := 40 - s.rf .syncphy 0 4 0

/-- TICK_SYMBOL: the special source of R330, the repeated symbol, then after the delay of the position a tick request (R50, R350). -/
def tickSymbol (s : State) : State :=
  let s := strobe 7 s
  let s := repeatSymbol [0x3C] (advanceTime (s.frame.time + repeatDelay s) s)
  tickRequest 4 (advanceTime (s.frame.time + chainDelay s) s)

/-- EPOCH_SYMBOL: repeated, checked, kept for the next tick (R50, R51, R349). -/
def epochSymbol (e : BitVec 48) (crc : Byte) (s : State) : State :=
  let s := repeatSymbol (epochChars e crc) (advanceTime (s.frame.time + repeatDelay s) s)
  if crc8 (leBytes 6 e.toNat) = crc.toNat then { s with frame := { s.frame with rxEpoch := some e } }
  else s.count .syncstat 0 15 0 1

/-! ### Outputs through start-up and reset (R424) -/

/-- What an LVDS output or a lane's transmitter does between symbols and messages: its driver off, or idle. -/
inductive TxState
  | off | idle
  deriving DecidableEq, Repr

/-- SYNC_OUT: its driver is off until FIRMWARE step 5 (R349, R414, R424). -/
def State.syncOut (s : State) : TxState := if s.hub.supply = .off || !s.edge.syncOn then .off else .idle

/-- A lane's transmitter: off until a configuration is loaded or in force and enables the lane, and in a halted module (R424, R431). -/
def State.laneTx (s : State) (l : Nat) : TxState :=
  if s.hub.supply = .off || s.mode = .halted || (s.ldr.inForce.isNone && s.ldr.load.isNone) || !(bit (s.reg .laneCfg l) 31) then .off
  else .idle

/-! ### Power at a tick (R81 to R85, R173, R233 to R235, R435, R437, R440) -/

/-- A fold takes a power state at a tick: toward ON it wakes from RETAIN; out of ON it goes once its hurdle, which starts closing, has
sealed (R81, R83, R270). -/
def setFoldPower (t : Power) (pf : Nat) (s : State) : State :=
  let f := s.fold pf
  if f.role = .isolated || f.power = t then s
  else if t = .on || t = .waking then (if f.power = .retain then s.modFold pf fun f => { f with power := .waking } else s)
  else if f.hurdle = .closed then dropFold t pf s
  else s.modFold pf fun f => { f with hurdle := .closing, goal := some t }

/-- Whether a domain whose hurdle closes is ON and will leave it when the hurdle has sealed (R270). -/
def leaving (h : Hurdle) (p r : Power) : Bool := h == .closing && p == .on && r != .on

/-- Whether a bank has its recorded state, is on its way to it, or has failed. -/
def State.bankSettled (s : State) (b : Nat) : Bool :=
  let k := s.bank b
  k.failed || k.power == k.recorded || (k.power == .waking && k.recorded == .on) || leaving k.hurdle k.power k.recorded

/-- A bank takes its recorded state at a tick; out of ON it goes once its hurdle has sealed (R233, R235, R270). -/
def setBankPower (b : Nat) (s : State) : State :=
  let k := s.bank b
  if s.bankSettled b then s
  else
    let s := if k.power = .off then clearBank b s else s
    match k.recorded with
    | .on => s.modBank b fun x => { x with power := .waking, opensAt := if k.power = .off then 2048 else 500 }
    | r => s.modBank b fun x => if x.hurdle = .closed then { x with power := r } else { x with hurdle := .closing }

/-- Clear an engine's local memory (R172). -/
def clearLocal (e : Nat) (s : State) : State :=
  { s with eng := { s.eng with mem := Store.dropRange s.eng.mem (65536 * e) (65536 * e + 65536)
                               ecc := Store.dropRange s.eng.ecc (8192 * e) (8192 * e + 8192) } }

/-- Whether an engine has its recorded state, is on its way to it, or has failed. -/
def State.engSettled (s : State) (e : Nat) : Bool :=
  let g := s.engine e
  g.failed || g.power == g.recorded || (g.power == .waking && g.recorded == .on) || leaving g.hurdle g.power g.recorded

/-- An engine takes its recorded state at a tick; out of ON it goes once its hurdle has sealed (R172, R173, R270). -/
def setEngPower (e : Nat) (s : State) : State :=
  let g := s.engine e
  if s.engSettled e then s
  else
    let s := if g.power = .off then clearLocal e s else s
    match g.recorded with
    | .on => s.modEng e fun x => { x with power := .waking, opensAt := 1000 }
    | r => s.modEng e fun x =>
      if x.hurdle = .closed then { x with power := r, queue := [], cache := [], served := [] } else { x with hurdle := .closing }

/-- An accepted POWER_STATE record changes a recorded state (R435, R437). -/
def applyPower (x : PowRec) (s : State) : State :=
  let p := powerOf x.state
  match x.kind.toNat with
  | 0 => s.modPen x.index.toNat fun n => { n with recorded := p }
  | 1 => match s.bankOf x.index.toNat with
    | none => s
    | some b => s.modBank b fun k => { k with recorded := p }
  | _ => s.modEng x.index.toNat fun g => { g with recorded := p }

/-- The module state from this tick on (R417, R434, R437, R440). -/
def nextMode (s : State) : ModState :=
  if s.ldr.inForce.isNone || !s.hub.wantRun || !(s.running || bit (s.reg .bootstat) 25) then .ready
  else if s.hub.shedding then .shed else .run

/-- The power state a pen takes (R435, R440). -/
def State.penTarget (s : State) (p : Pen) : Power :=
  if p.recorded = .on && (!s.running || p.shedNow) then .retain else p.recorded

/-- A fold of a pen that an activation places starts in the pen's state: ON at once, without a wake (R84, R285, R304). -/
def startFoldPower (t : Power) (pf : Nat) (s : State) : State :=
  if t = .on && (s.fold pf).role != .isolated then openFold pf s else setFoldPower t pf s

/-- The power-state changes of a tick; `placed` are the pens that an activation has just placed, by first logical fold (R24 step 5). -/
def tickPower (placed : List Nat) (s : State) : State :=
  let s := s.hub.nextPower.foldl (fun s x => applyPower x s) s
  let want := s.hub.nextRun.getD s.hub.wantRun
  let s := { s with hub := { s.hub with nextPower := [], nextRun := none, wantRun := want } }
  let s := { s with mode := nextMode s }
  let s := s.mapPens fun p => { p with shedNow := s.mode == .shed && p.cfg.shed && p.recorded == .on
                                       unloaded := p.unloaded || (p.recorded == .off && !(s.beingReplaced p.cfg.first)) }
  let s := s.arr.pens.foldl (fun s p => if s.beingReplaced p.cfg.first then s
    else
      let set := if placed.contains p.cfg.first then startFoldPower else setFoldPower
      (s.memberFolds p).foldl (fun s pf => set (s.penTarget p) pf s) s) s
  let spare := s.hub.subst.map (·.spare)
  let s := (s.arr.folds.map (·.1)).foldl (fun s pf =>
    if (s.fold pf).role = .spare && spare ≠ some pf then setFoldPower .retain pf s else s) s
  let s := ((List.range 272).filter fun b => !(s.bankSettled b)).foldl (fun s b => setBankPower b s) s
  ((List.range 32).filter fun e => !(s.engSettled e)).foldl (fun s e => setEngPower e s) s

/-- The leader of a pen: the lowest-numbered active member that is ON with its hurdle open, or that wakes toward ON (R65). -/
def chooseLeader (s : State) (p : Pen) : Option Nat :=
  (s.memberFolds p).find? fun pf =>
    let f := s.fold pf
    f.role == .active && !f.lost && ((f.power == .on && f.hurdle == .opened) || f.power == .waking)

/-! ### The closing frame -/

/-- FRAME.LATEMAP as the closing frame leaves it (R24 step 8, R35, R436). -/
def lateWord (s : State) (i : Nat) : Word :=
  (List.range 32).foldl (fun (w : Word) j => match s.penOf (32 * i + j) with
    | none => w
    | some p => if s.penLate p then w ||| bit32 true j else w) 0

/-- Whether the closing frame was good (R480). -/
def State.goodFrame (s : State) : Bool :=
  s.running && !s.hub.missedNow && !(s.arr.pens.any fun p => s.penLate p)

/-- What the closing frame leaves: restores owed, latched waits, egress delays, good frames (R36, R46, R48, R343, R480). -/
def closeFrame (s : State) : State :=
  let s := if s.hub.fw.st = .confirming && s.goodFrame then s.count .updGoodfr 0 31 0 1 else s
  let s := { s with hub := { s.hub with missedNow := false } }
  let s := s.mapPens fun p => if p.entered then { p with restoreOwed := p.restoreOwed || !p.completed } else p
  ((List.finRange 16).map EgCh.pins).foldl (fun s c => egressTick c s) s

/-! ### The steps of a tick (R24) -/

/-- Step 1: the epoch, which a SYNC follower takes from its head (R24, R51). -/
def tickEpoch (s : State) : State :=
  let own := s.frame.epoch + 1
  let sym := s.rf .tickcfg 0 2 0 = 4 && !s.frame.subst
  let e := match s.frame.rxEpoch with
    | none => own
    | some e => if sym then e else own
  let s := { s with frame := { s.frame with epoch := e, cycle := 0, hold := false, rxEpoch := none } }
  if e ≠ own then fire 23 0 s else s

/-- Step 2: an activation that is ready, or T0 of one that is pending; answers the image that took effect. The SUBST blocks of a
partial image replace the patches of the folds they name, those of pens that stay too (R24, R302, R304, R306, R319). -/
def tickActivate (s : State) : Option Image × State :=
  match s.ldr.load with
  | some l =>
    if s.ldr.act != .ready then (none, s)
    else
      let lfs := lfsOf l.img.pens
      let more := (l.img.subst.map (·.lf)).filter fun lf => !l.img.full && !(lfs.contains lf) && s.onSpare lf
      let s := activationT1 l (more.foldl (fun s lf => unpatchFold lf s) s)
      (some l.img, linkFolds ((lfs.filter s.onSpare ++ more).foldl (fun s lf => patchFold lf s) s))
  | none => (none, if s.isT0 then activationT0 s else s)

/-- Whether a stopped pen comes back at this tick: a substituted one once the closing frame reached G + 832 after it, one that lost
a member at the next tick (R39, R446). -/
def comesBack (s : State) (p : Pen) : Bool :=
  p.substPend && !(s.substBusy p) && (p.rejoinOk || (p.newLost && !p.substDone))

/-- The pens that come back at this tick (R446). -/
def rejoining (s : State) : List Nat :=
  ((s.arr.pens.filter fun p => comesBack s p && !(s.beingReplaced p.cfg.first)).map (·.cfg.first))

/-- The logical folds on spares whose SUBST blocks apply from this tick on (R318, R446). -/
def newPatched (s : State) (done : Option Image) : List Nat :=
  let old := match s.ldr.inForce with
    | none => []
    | some f => f.patched
  let ps := rejoining s ++ match done with
    | none => []
    | some img => img.pens.map (·.first)
  let moved := (s.arr.pens.filter fun p => ps.contains p.cfg.first).flatMap fun p =>
    p.members.filter s.onSpare
  old ++ moved.filter fun lf => !(old.contains lf)

/-- Step 4: the routers switch their tables, the drain window opens, and the tags of the old epoch are free (R24, R255, R263, R264). -/
def tickTables (done : Option Image) (s : State) : State :=
  let s := match s.ldr.inForce with
    | none => s
    | some f => { s with ldr := { s.ldr with inForce := some { f with patched := newPatched s done } } }
  { s with dw := { s.dw with tep := !s.dw.tep, oldTabs := s.dw.tabs, tabs := newTables s, set := chosenSet s, drain := true
                             tags := s.dw.tags.filter fun x => x.2.any fun h => !(oldEpoch s h.pkt)
                             notices := [], isoFired := false, probeFired := false } }

/-- The frame's marks of one fold are reset, and PARRUN of a fold that is ON is brought up to date (R75, R76, R79, R80, R516). -/
def tickFold (pf : Nat) (s : State) : State :=
  let run := if (s.fold pf).parFrame then min 255 (s.rf .faultstat pf 23 16 + 1) else 0
  let s := if s.rf .faultstat pf 23 16 = run || (s.fold pf).power != .on then s else s.setRf .faultstat pf 23 16 run
  let s := if bit (s.reg .paraddr pf) 31 then s.setRf .paraddr pf 31 31 0 else s
  s.modFold pf fun f => { f with parFrame := false, faultFired := false, beat := false, copied := [], owed := [], pe := { f.pe with tap := 0 } }

/-- Step 5, first part: PARRUN of every fold; the pens whose folds reach PARTHR are isolated and take no entry (R76, R442). -/
def tickParity (s : State) : List Nat × State :=
  let keys := s.arr.folds.map (·.1)
  let s := keys.foldl (fun s pf => tickFold pf s) s
  let bad := keys.filter fun pf => (s.fold pf).power == .on && s.rf .faultcfg pf 3 0 ≤ s.rf .faultstat pf 23 16
  let hit := (bad.filterMap s.penOfFold).map (·.cfg.first)
  (hit, bad.foldl (fun s pf => isolate pf s) s)

/-- Step 5, second part: rejoins and resumptions of pens not hit at this tick; every member of a substituted pen restores (R39, R446,
R447). -/
def tickRejoin (hit : List Nat) (s : State) : State :=
  s.arr.pens.foldl (fun s p =>
    if comesBack s p && !(hit.contains p.cfg.first) then
      markSubst p false (s.modPen p.cfg.first fun n =>
        { n with substPend := false, rejoinOk := false, newLost := false, substDone := false, restoreOwed := n.restoreOwed || n.substDone })
    else s) s

/-- The clean-start state of a sequencer (R26, R127). -/
def cleanSeq (entry : BitVec 14) (q : Seq) : Seq :=
  { q with
    pc := entry, core := { q.core.emptyStack with wb := 0, s := Vector.replicate 8 0 }, rep := none, load := none
    latch := false, red := none, ra := none, cancel := none, stall := false, mrReady := 0, mrPend := 0, dead := false
    lat := { q.lat with mark := 0, illFired := false, stkFired := false } }

/-- The clean-start state of PEs (R26). -/
def cleanPe (r : PeRegs) : PeRegs := { r with w := 0, c := 0, a := BitVec.allOnes 4096, t := 0, x := 0 }

/-- Whether a pen takes frame entry (R24 step 6, R302, R442, R446). -/
def takesEntry (s : State) (hit : List Nat) (p : Pen) : Bool :=
  s.running && p.recorded == .on && !p.shedNow && p.leader.isSome && !p.substPend && !p.newLost &&
    !(hit.contains p.cfg.first) && !(s.replacing p.cfg.first)

/-- A pen takes frame entry (R24 step 6, R26, R27, R83). -/
def enterPen (p : Pen) (s : State) : State :=
  let l := (s.memberFolds p).filter fun pf => (s.fold pf).power == .on || (s.fold pf).power == .waking
  let wakes := l.any fun pf => (s.fold pf).power == .waking
  let s := match p.leader with
    | none => s
    | some pf => match (s.seq pf).ra with
      | none => s
      | some ra => undoRunAhead pf ra s
  let s := l.foldl (fun s pf => modPe pf cleanPe (s.modSeq pf (cleanSeq p.cfg.entry))) s
  s.modPen p.cfg.first fun n =>
    { n with
      entered := true, run := false, stopped := false, notBefore := if wakes then 1000 else 0, stage := 0, yielded := []
      late := false, faulted := false, hints := [], completed := false, restored := n.restoreOwed }

/-- Step 6: leaders, and the entry of every pen that takes part (R24, R65). -/
def tickEntry (hit : List Nat) (s : State) : State :=
  let s := s.mapPens fun p => { p with leader := chooseLeader s p }
  s.arr.pens.foldl (fun s p =>
    if takesEntry s hit p then enterPen p s
    else s.modPen p.cfg.first fun n => { n with entered := false, run := false, yielded := [], hints := [], completed := false }) s

/-- Every ON member of a pen restores its carried region (R46). -/
def restorePen (p : Pen) (s : State) : State :=
  let s := (s.liveFolds p).foldl (fun s pf => (List.range p.cfg.carried).foldl (fun s k => restorePlane pf p.cfg (p.cfg.cbase + k) s) s) s
  s.modPen p.cfg.first fun n => { n with restoreOwed := false }

/-- Step 7: pens that owe a restore, and are awake, make it (R24, R46, R48). -/
def tickRestore (s : State) : State :=
  s.arr.pens.foldl (fun s p =>
    if p.entered && p.restoreOwed && p.notBefore = 0 then restorePen p s else s) s

/-- WAITMAX as it reads (R240). -/
def State.waitShown (s : State) (b : Nat) : Nat := s.rf .waitmax b 15 0

/-- The per-frame state of engines and banks (R200, R201, R213, R240). -/
def tickBlocks (s : State) : State :=
  let s := (s.eng.units.map (·.1)).foldl (fun s e => s.modEng e fun g => { g with cache := [], trapFired := false, errFired := false }) s
  ((List.range 272).filter fun b => s.waitShown b != (s.bank b).maxWait || (s.bank b).maxWait != 0).foldl (fun s b =>
    let w := (s.bank b).maxWait
    let s := if w = 0 then s else s.modBank b fun k => { k with maxWait := 0 }
    if s.rf .waitmax b 15 0 = min w 65535 then s else s.setReg .waitmax b 0 (at32 (min w 65535) 0)) s

/-- Any hurdle that is still closing seals before the next close begins (R270). -/
def sealAll (s : State) : State :=
  let s := (s.arr.folds.map (·.1)).foldl (fun s pf => sealFold pf s) s
  let s := ((List.range 272).filter fun b => (s.bank b).hurdle == .closing).foldl (fun s b => sealBank b s) s
  (List.range 32).foldl (fun s e => sealEng e s) s

/-- The actions of a tick in the order of R24. A lane's new frame begins before the group commits, and its TIME message goes before
the messages that fall due at the tick (R362, R364, R380, R383). -/
def tickActions (s : State) : State :=
  let late := (List.range 8).map (lateWord s)
  let (acts, s) := lanesDue (closeFrame s)
  let s := (List.range 32).foldl (fun s l => laneTick l s) (tickEpoch s)
  let (done, s) := tickActivate s
  let s := tickTables done (decideGroup done s)
  let (hit, s) := tickParity s
  let placed := match done with
    | none => []
    | some img => img.pens.map (·.first)
  let s := tickPower placed (tickRejoin hit (if s.hub.subst.isNone then serveWaiting s.hub.waiting s else s))
  let s := tickBlocks (tickRestore (tickEntry hit s))
  let s := (List.range 8).foldl (fun s i => s.setReg .latemap i 0 (late.getD i 0)) s
  let s := { s with frame := { s.frame with
    cycle := 0, ticked := true, hold := false, held := false, absorb := s.frame.subst, missed := false, subst := false
    guardDone := false, g832 := false, g960 := false }, edge := { s.edge with samples := [] } }
  let s := timeMessages s
  { s with out := s.out ++ acts }

/-- The tick: the hurdles that still close have sealed; then the actions of R24, in one cycle (R24, R270, R402). -/
def frameTick (s : State) : State := inOneCycle tickActions (sealAll (wipeDue s))

/-- The time of a tick that is due: cycle P, or the cycle after the request in hold; a head sends its TICK symbol then and ticks
with its followers (R15, R16, R21, R50). -/
def dueTime (s : State) : State :=
  let s := advanceTo s.period s
  let s := if s.frame.hold && !s.frame.subst then advanceTime (s.frame.time + 1) s else s
  if s.rf .synccfg 0 3 0 = 0 then advanceTime (s.frame.time + chainDelay s) (headSymbol [0x3C] s) else s

/-- A tick that is due (R15, R16). -/
def takeTick (s : State) : State := frameTick (dueTime s)

/-! ### Stages (R29 to R31) -/

/-- A pen jumps to its entry for a stage; a stage it has already yielded for, by HALT, it idles through (R29, R109). -/
def startPen (k : Nat) (x : Nat × BitVec 14) (s : State) : State :=
  match s.penAt x.1 with
  | none => s
  | some p =>
    if !p.entered || p.stopped then s
    else
      let s := match p.leader with
        | none => s
        | some pf => s.modSeq pf fun q =>
            { q with pc := x.2, core := { q.core.emptyStack with wb := 0 }, rep := none
                     lat := { q.lat with illFired := false, stkFired := false } }
      s.modPen x.1 fun n => { n with stage := k, run := !(n.yielded.contains k) }

/-- STAGE_START. -/
def stageStart (k : Nat) (s : State) : State :=
  match s.stages[k]? with
  | none => s
  | some st =>
    if !s.ticks || s.frame.hold then s else st.parts.foldl (fun s x => startPen k x s) (advanceTo st.start s)

/-- A pen that has not yielded for a stage by its deadline is stopped, marked LATE, and raises LATE (R30, R31). -/
def deadlinePen (k : Nat) (first : Nat) (s : State) : State :=
  match s.penAt first with
  | none => s
  | some p =>
    if !p.entered || p.stopped || p.yielded.contains k then s
    else
      let s := (stopPen first true s).modPen first fun n => { n with late := true }
      match p.leader with
      | none => s
      | some pf => fire (64 + 4 * pf + 1) 0 s

/-- DEADLINE_STOP. -/
def deadlineStop (k : Nat) (s : State) : State :=
  match s.stages[k]? with
  | none => s
  | some st =>
    if !s.ticks || s.frame.hold then s else inOneCycle (fun s => st.parts.foldl (fun s x => deadlinePen k x.1 s) s) (advanceTo st.deadline s)

/-! ### The guard band (R32 to R34, R45, R46) -/

/-- GUARD_BAND: cycle G (R32 step 1, R33, R146, R148). -/
def guardBand (done : List (Fin 32 × Nat)) (s : State) : State :=
  if !s.ticks || s.frame.guardDone then s
  else
    let s := advanceTo s.guard s
    let s := inOneCycle (fun s => (List.range 32).foldl (fun s e =>
      abandonEngine e (match done.find? (·.1.val == e) with
        | none => 0
        | some x => x.2) s) s) s
    let s := (s.arr.folds.map (·.1)).foldl (fun s pf => s.modFold pf fun f => { f with moves := [], histo := none }) s
    let e := s.frame.epoch + 1
    let s := headSymbol (epochChars e (BitVec.ofNat 8 (crc8 (leBytes 6 e.toNat)))) s
    { s with frame := { s.frame with guardDone := true } }

/-- The carried planes of a pen. -/
def PenCfg.planes (c : PenCfg) : List Nat := (List.range c.carried).map (c.cbase + ·)

/-- The flush of one fold: the planes left unhinted, none where they are more than 12 or the flush is cut short (R34, R45). -/
def flushFold (p : Pen) (cut : Bool) (pf : Nat) (s : State) : State :=
  let left := p.cfg.planes.filter fun a => !(p.hints.contains a)
  if cut || 12 < left.length then s else left.foldl (fun s a => copyPlane pf p.cfg a s) s

/-- CHECKPOINT_FLUSH: from G + 64 (R32 step 3, R45). -/
def checkpointFlush (cut : List (Fin 272)) (s : State) : State :=
  if !s.ticks || s.frame.g832 then s
  else
    s.arr.pens.foldl (fun s p =>
      if p.entered && s.penOnTime p then (s.liveFolds p).foldl (fun s pf => flushFold p (cut.any (·.val == pf)) pf s) s
      else s) (advanceTo (s.guard + 64) s)

/-- Whether a fold has copied its carried planes in this frame (R46). -/
def checkpointed (s : State) (p : Pen) (pf : Nat) : Bool := p.cfg.planes.all (s.fold pf).copied.contains

/-- One pen at G + 832: its members switch buffers together, or it is LATE for want of a checkpoint; a substituted pen may
rejoin at the next tick (R34, R46, R446). -/
def validatePen (p : Pen) (s : State) : State :=
  let s := if p.substPend then s.modPen p.cfg.first fun n => { n with rejoinOk := true } else s
  if !p.entered || !(s.penOnTime p) then s
  else if (s.memberFolds p).all fun pf => checkpointed s p pf then
    let s := s.modPen p.cfg.first fun n => { n with completed := true }
    p.members.foldl (fun s lf => { s with arr := { s.arr with buf1 := Store.set s.arr.buf1 false lf (!(s.validBuf1 lf)) } }) s
  else s.modPen p.cfg.first fun n => { n with late := true }

/-- CHECKPOINT_VALIDITY: G + 832 (R32 step 4). -/
def checkpointValidity (s : State) : State :=
  if !s.ticks || s.frame.g832 then s
  else
    let s := advanceTo (s.guard + 832) s
    let s := s.arr.pens.foldl (fun s p => validatePen p s) s
    { s with frame := { s.frame with g832 := true } }

/-- READINESS_LATCH: G + 960 (R32 step 6, R302, R304). -/
def readinessLatch (s : State) : State :=
  if !s.ticks || s.frame.g960 then s
  else
    let s := advanceTo (s.guard + 960) s
    let ready := s.ldr.act == .loading && match s.ldr.load with
      | none => false
      | some l => l.complete
    let s := { s with frame := { s.frame with g960 := true } }
    if ready then { s with ldr := { s.ldr with act := .ready } }
    else if s.ldr.act == .pending then { s with ldr := { s.ldr with actArmed := true } }
    else s

/-- Whether a packet in an output queue is left over from the table epoch before: none of its flits has gone on (R43, R265). -/
def leftOver (s : State) (x : Queued) : Bool := !(x.pkt.net == .snp) && x.pkt.tep != s.dw.tep && x.sent == 0

/-- The network of a code. -/
def netOf : Nat → Net
  | 0 => .req
  | 1 => .rsp
  | 2 => .data
  | _ => .snp

/-- What an output queue has left over is absorbed. -/
def drainQueue (k : Nat) (q : List Queued) (s : State) : State :=
  let old := q.filter fun x => leftOver s x
  let n := k / 64
  if old.isEmpty then s
  else old.foldl (fun s x => drainPacket n x.pkt s) (takeOut n (netOf (k / 8 % 8)) (k % 8) (leftOver s) s)

/-- Whether what carries a frame epoch bit is of the current frame (R40, R43). -/
def freshBit (s : State) (e : Bool) : Bool := e == bit s.frame.epoch 0

/-- What is on its way to engines and from them is absorbed with the old epoch, and counted at the router it was injected at (R43; log entry
103). -/
def drainFlights (s : State) : State :=
  let s := (s.arr.flight.filter fun d => !(freshBit s d.fep)).foldl (fun s d => s.count .nodeErrcnt0 d.pf 15 0 1) s
  let s := (s.eng.posts.filter fun x => !(freshBit s x.fep)).foldl (fun s x => s.count .nodeErrcnt0 (engineNode x.engine) 15 0 1) s
  { s with arr := { s.arr with flight := s.arr.flight.filter fun d => freshBit s d.fep }
           eng := { s.eng with posts := s.eng.posts.filter fun x => freshBit s x.fep } }

/-- DRAIN_WINDOW_CLOSE: frame cycle 2,000; the routers absorb what is still in flight (R43, R264, R265; log entry
103). -/
def drainClose (s : State) : State :=
  if !s.dw.drain then s
  else
    let s := advanceTo 2000 s
    let s := { s with dw := { s.dw with drain := false } }
    drainFlights (s.dw.queues.foldl (fun s x => drainQueue x.1 x.2 s) s)

/-! ### Wakes (R48, R83, R235, R266, R273) -/

/-- PEN_WAKE: the members that wake reach ON at frame cycle 1,000, and an owed restore runs before the first stage (R48, R83). -/
def penWake (first : Nat) (s : State) : State :=
  match s.penAt first with
  | none => s
  | some p =>
    let l := (s.memberFolds p).filter fun pf => (s.fold pf).power == .waking
    if l.isEmpty then s
    else
      let s := advanceTo 1000 s
      let s := l.foldl (fun s pf => openFold pf s) s
      if p.entered && p.restoreOwed then
        (restorePen p s).modPen first fun n => { n with notBefore := 1016 + 64 * p.cfg.carried }
      else s

/-- BANK_WAKE (R235). -/
def bankWake (b : Nat) (s : State) : State :=
  if (s.bank b).power != .waking then s
  else openBank b (advanceTo (s.bank b).opensAt s)

/-- ENGINE_WAKE (R273). -/
def engineWake (e : Nat) (s : State) : State :=
  if (s.engine e).power != .waking then s
  else openEng e (advanceTo (s.engine e).opensAt s)

/-! ### The commands -/

/-- HOLD (R16). -/
def execHold (s : State) : Out := .next (holdOp s)

/-- TICK_MISSED (R21). -/
def execTickMissed (s : State) : Out := .next (missOp s)

/-- PTP_COMPARE (R19). -/
def execPtpCompare (s : State) : Out := .next (ptpCompare s)

/-- TICK_SYMBOL (R50). -/
def execTickSymbol (s : State) : Out := .next (tickSymbol s)

/-- EPOCH_SYMBOL (R51). -/
def execEpochSymbol (epoch : BitVec 48) (crc : Byte) (s : State) : Out := .next (epochSymbol epoch crc s)

/-- STAGE_START (R29). -/
def execStageStart (k : Fin 16) (s : State) : Out := .next (stageStart k s)

/-- DEADLINE_STOP (R30). -/
def execDeadlineStop (k : Fin 16) (s : State) : Out := .next (deadlineStop k s)

/-- GUARD_BAND (R32). -/
def execGuardBand (done : List (Fin 32 × Nat)) (s : State) : Out := .next (guardBand done s)

/-- CHECKPOINT_FLUSH (R45). -/
def execCheckpointFlush (cut : List (Fin 272)) (s : State) : Out := .next (checkpointFlush cut s)

/-- CHECKPOINT_VALIDITY (R46). -/
def execCheckpointValidity (s : State) : Out := .next (checkpointValidity s)

/-- READINESS_LATCH (R304). -/
def execReadinessLatch (s : State) : Out := .next (readinessLatch s)

/-- DRAIN_WINDOW_CLOSE (R264). -/
def execDrainWindowClose (s : State) : Out := .next (drainClose s)

/-- PEN_WAKE (R83). -/
def execPenWake (p : Fin 256) (s : State) : Out := .next (penWake p s)

/-- BANK_WAKE (R235). -/
def execBankWake (b : Fin 272) (s : State) : Out := .next (bankWake b s)

/-- ENGINE_WAKE (R273). -/
def execEngineWake (e : Fin 32) (s : State) : Out := .next (engineWake e s)

end Sys2Proof.Machine
end

