-- ==== Sys2Proof/Machine/Reset.lean ====
section
/-! DEFINITION. Module resets, host resets, the orderly stop, supplies and thermal limits (R387, R419 to R423, R427 to R433, R438 to
R440). -/

namespace Sys2Proof.Machine

/-! ### Resets -/

/-- Drop the stored bits of the registers of an address range: they read their reset values. -/
def dropRegs (lo hi : Nat) (s : State) : State := { s with regs := Store.dropRange s.regs lo hi }

/-- The registers a module reset leaves: the pin-safe map and the supply's own status while the hub rail stays up (R421). -/
def keptRegs (power : Bool) (m : Store Word) : Store Word :=
  if power then []
  else m.filter fun x => (0x70C600 ≤ x.1 && x.1 < 0x70C900) || x.1 = 0x30000 || x.1 = 0x30004

/-- What every reset and a power-down leave of the block; the soft repairs of the banks are applied again at every start-up (R231, R421). -/
def clearState (power : Bool) (s : State) : State :=
  let h := s.hub
  let slots := s.ldr.slots.map fun x => if x.st = .stored then x else {}
  { pending := s.pending, out := s.out, freeCount := s.freeCount, mode := .starting, phase := .rom
    regs := keptRegs power s.regs
    ldr := { slots := slots }
    banks := (s.banks.filter fun x => !x.2.soft.isEmpty).map fun x => (x.1, { soft := x.2.soft })
    cairn := { s.cairn with disarmed := false }
    edge := { pad := s.edge.pad, outside := s.edge.outside, mapped := s.edge.mapped && !power }
    hub := { fuses := h.fuses, settings := { h.settings with unreadable := false, migrated := false }
             fw := { h.fw with readyAt := none }, pres := { keyHeld := h.pres.keyHeld, pinHeld := h.pres.pinHeld }
             supply := h.supply, lid := h.lid, mesh := h.mesh, serial := h.serial } }

/-- A module reset with its cause: presence ends, and a new start-up begins at ROM (R410, R419 to R421, R456). -/
def moduleReset (cause : Nat) (s : State) : State :=
  let n := if cause = 1 then 0 else min 65535 (s.rf .rstcause 0 15 0 + 1)
  let s := endPresence s
  let s := clearState (cause = 1) s
  let s := s.setReg .rstcause 0 0 (at32 cause 28 ||| at32 n 0)
  s.setReg .cairnAck 0 0 (BitVec.ofNat 32 s.cairn.newest)

/-- The host-facing blocks return to their reset values; the response payload of a command in progress is lost; the service port is
not affected (R387). -/
def hostReset (s : State) : State :=
  let s := dropRegs 0x800000 0x810000 (dropRegs 0x10000 0x20000 s)
  { s with evt := { setAt := s.evt.setAt, setNow := Store.dropRange s.evt.setNow 0x10000 0x20000, recNow := s.evt.recNow }
           host := { s.host with dma := [], nic := [], mbox := { s.host.mbox with lostPayload := s.host.mbox.busy } } }

/-- The USB4 link goes down (R387). -/
def linkDown (s : State) : State :=
  if !(bit (s.reg .usbStatus) 31) then s
  else
    let s := hostReset s
    (s.setRf .usbStatus 0 31 24 0).count .usbStatus 0 15 0 1

/-! ### The orderly stop (R431, R382, R433) -/

/-- Steps 1 to 3, after a wipe in progress has finished: pens, engines and rings stop, the pins are safe, queued commands are discarded and
halt messages go out (R240, R431). -/
def haltModule (messages : Bool) (s : State) : State :=
  let s := finishWipe s
  let s := s.arr.pens.foldl (fun s p => (stopPen p.cfg.first true s).modPen p.cfg.first fun n => { n with run := false }) s
  let s := (List.range 32).foldl (fun s e => abandonEngine e 0 s) s
  let s := { s with mode := .halted, edge := { s.edge with halted := true }
                    host := { s.host with dma := s.host.dma.map fun x => (x.1, { x.2 with ring := { x.2.ring with on := false } })
                                          nic := [] } }
  if messages then allChannels.foldl (fun s c => haltChannel c s) s else s

/-- Step 6: the dies, engines and lanes power down, and the USB4 link goes down; the secure pasture, on the hub die, keeps its words
(R237, R431). -/
def powerDown (s : State) : State :=
  let s := linkDown s
  let s := dropRegs 0x30200 0x30640 s
  let off := fun (f : Fold) => { role := f.role, lf := f.lf, lost := f.lost : Fold }
  { s with arr := { s.arr with folds := s.arr.folds.map fun x => (x.1, off x.2)
                               planes := [], badRows := [], ispace := [], dspace := [], flight := [], failed := [] }
           eng := {}, mem := Store.dropRange s.mem 0 0x8800000, ecc := Store.dropRange s.ecc 0 (272 * 65536), banks := [], lanes := []
           dw := { s.dw with queues := [], rot := [], tags := [] } }

/-- The end of a stop from HOLD: the hub powers down as well (R432). -/
def powerOff (s : State) : State :=
  let s := clearState true (powerDown s)
  { s with mode := .off, hub := { s.hub with supply := .off } }

/-- HOLD: the orderly stop, as far as the store allows before it is charged; the time of the record is open within 200 µs (R430,
R431, R433). -/
def holdStop (s : State) : State :=
  let s := { s with hub := { s.hub with supply := .hold } }
  let s := s.setRf .supStatus 0 31 30 0
  let d := s.draw 16
  let s := d.2
  let full := bit (s.reg .bootstat) 25
  let s := haltModule (full || bit d.1 15) s
  let s := if full || bit d.1 14 then cairnWrite 0x12 0 (leBytes 4 (fld d.1 7 0 % 201)) false true s else s
  powerOff s

/-! ### Supplies (R427 to R430) -/

/-- The last samples of both feeds. -/
def sampleVin (va vb : Half) (s : State) : State := s.setReg .supVin 0 0 (at32 va.toNat 16 ||| at32 vb.toNat 0)

/-- The bit of SUP.STATUS that says a feed is qualified. -/
def qualBit (b : Bool) : Nat := if b then 28 else 29

/-- The feed that supplies the module. -/
def setFeed (b : Bool) (s : State) : State :=
  let s := { s with hub := { s.hub with supply := if b then .onB else .onA } }
  s.setRf .supStatus 0 31 30 (if b then 2 else 1)

/-- A completed switch to a feed (R428, R429). -/
def switchover (b : Bool) (ns : Half) (s : State) : State :=
  let s := (setFeed b s).count .supCount 0 31 16 1
  cairnWrite 0x11 b.toNat (leBytes 2 ns.toNat) false true (fire 3 0 s)

/-- VIN_A qualifies in the sample whose VIN_B has just begun the start-up: at t0 of a POWER_ON start-up from VIN_B (R410, R428). -/
def sameSample (b : Bool) (s : State) : Bool :=
  !b && s.hub.supply == .onB && s.phase == .rom && s.frame.time == 0 && s.rf .rstcause 0 31 28 == 1

/-- FEED_QUALIFY: a start-up begins when no feed was qualified, from VIN_A where both qualify in one sample (R427, R428). -/
def feedQualify (b : Bool) (va vb : Half) (s : State) : State :=
  let s := if s.hub.supply = .off then setFeed b (moduleReset 1 s) else if sameSample b s then setFeed false s else s
  let q := qualBit b
  sampleVin va vb (s.setRf .supStatus 0 q q 1)

/-- FEED_LOSS: a qualified feed is lost (R427 to R430). -/
def feedLoss (b ov : Bool) (va vb ns : Half) (s : State) : State :=
  let q := qualBit b
  if s.hub.supply = .off || !(bit (s.reg .supStatus) q) then s
  else
    let s := sampleVin va vb (s.setRf .supStatus 0 q q 0)
    let s := if b then s else s.setRf .supStatus 0 27 27 0
    let s := fire (if b then 2 else 1) 0 (s.count .supCount 0 15 0 1)
    let s := cairnWrite 0x10 b.toNat (leBytes 1 (if ov then 2 else 1)) false true s
    if s.hub.supply ≠ (if b then .onB else .onA) then s
    else if bit (s.reg .supStatus) (qualBit (!b)) then switchover (!b) ns s
    else holdStop s

/-- VIN_A_STABLE: VIN_A has been in range for 500 ms (R428). -/
def vinAStable (ns : Half) (s : State) : State :=
  if s.hub.supply = .off || !(bit (s.reg .supStatus) 29) then s
  else
    let s := s.setRf .supStatus 0 27 27 1
    if s.hub.supply = .onB then switchover false ns s else s

/-- HOLDUP_CHARGED: the store charges from the FIRMWARE phase on (R417). -/
def holdupCharged (s : State) : State :=
  if s.phase = .firmware || s.phase = .standby || s.phase = .selftest || s.phase = .ready then s.setRf .bootstat 0 25 25 1 else s

/-! ### Thermal limits (R438 to R440) -/

/-- A reading as a signed number. -/
def reading (w : Word) : Int := signedOf 16 w.toNat

/-- The highest sampled reading and the lowest-numbered sensor that shows it (R438). -/
def hottest (s : State) : Option (Int × Nat) :=
  (List.range 273).foldl (fun (m : Option (Int × Nat)) i =>
    let w := s.reg .thermTemp i
    if fld w 15 0 = 0x8000 then m
    else match m with
      | none => some (reading w, i)
      | some x => if x.1 < reading w then some (reading w, i) else m) none

/-- A level is entered: its source fires and the Cairn names the sensor. -/
def enterLevel (level src code unit : Nat) (detail : List Byte) (s : State) : State :=
  cairnWrite code unit detail false true (fire src 0 (s.setRf .thermStatus 0 31 30 level))

/-- The thermal orderly stop (R431, R432, R439). -/
def thermalStop (unit : Nat) (s : State) : State :=
  powerDown (cairnWrite 0x22 unit [] false true (haltModule true s))

/-- The pens that entry to SHED sheds (R440). -/
def shedPens (s : State) : List Pen := if s.mode = .run then s.arr.pens.filter fun p => p.cfg.shed && p.recorded == .on else []

/-- Where the highest reading moves the level (R439). -/
def thermalLevel (t : Int) (i : Nat) (s : State) : State :=
  let level := s.rf .thermStatus 0 31 30
  let s := if level = 0 && 140 * 16 ≤ t then enterLevel 1 4 0x20 i [] s
    else if level = 1 && t < 135 * 16 then s.setRf .thermStatus 0 31 30 0 else s
  let s := if level < 2 && 148 * 16 ≤ t then
      let s := enterLevel 2 5 0x21 i (leBytes 1 (min 255 (shedPens s).length)) s
      { s with hub := { s.hub with shedding := true } }
    else s
  if 155 * 16 ≤ t then thermalStop i s else s

/-- THERMAL_SAMPLE: fold sensors read while their dies are powered (R438, R439). -/
def thermalSample (temps : List (Fin 273 × Half)) (s : State) : State :=
  if s.mode = .off || s.hub.supply = .off then s
  else
    let dies := s.mode = .ready || s.running
    let s := temps.foldl (fun s x => if x.1.val = 272 || dies then s.setReg .thermTemp x.1.val 0 (at32 x.2.toNat 0) else s) s
    match hottest s with
    | none => s
    | some (t, i) =>
      let w := at32 i 16 ||| at32 (wrapTo 16 t) 0
      let s := s.setReg .thermStatus 0 0 (at32 (s.rf .thermStatus 0 31 30) 30 ||| w)
      let s := if reading (s.reg .thermPeak) < t then s.setReg .thermPeak 0 0 w else s
      if s.mode = .halted then s else thermalLevel t i s

/-- SHED_CLEAR: TMAX has stayed below 143 °C for 1 s (R439, R440). -/
def shedClear (s : State) : State :=
  if s.rf .thermStatus 0 31 30 ≠ 2 || 143 * 16 ≤ reading (s.reg .thermStatus) then s
  else
    let s := s.setRf .thermStatus 0 31 30 1
    { s with hub := { s.hub with shedding := false } }

/-! ### RESET_N and the watchdog (R351, R419, R482) -/

/-- RESET_N (R351, R420): an unpowered module has nothing to reset. -/
def resetN (s : State) : State := if s.hub.supply = .off then s else moduleReset 2 s

/-- Whether the shepherd firmware runs: from FIRMWARE on (R411, R432). -/
def State.fwRuns (s : State) : Bool := s.phase == .standby || s.phase == .selftest || s.phase == .ready

/-- WATCHDOG: the firmware, which FIRMWARE starts, has not served its watchdog; in CONFIRMING the loader goes back to the old firmware
(R411, R419, R482). -/
def watchdog (s : State) : State :=
  if !(s.fwRuns || s.phase == .firmware) || s.mode = .off || s.hub.supply = .off then s
  else
    let s := if s.hub.fw.st = .confirming then { s with hub := { s.hub with fw := { s.hub.fw with backDue := some 2 } } } else s
    moduleReset 3 s

/-! ### The USB4 link (R384, R385, R387) -/

/-- USB4_LINK_UP: the link trains at a rate, or at none and the Billboard device enumerates (R384). -/
def linkUp (rate : Nat) (s : State) : State :=
  if !s.fwRuns || s.mode = .off || bit (s.reg .usbStatus) 31 then s
  else if rate = 0 then s.setRf .usbStatus 0 25 25 1
  else s.setRf .usbStatus 0 31 24 (0xC0 + 16 * rate)

/-- LINK_POWER_STATE_ENTRY: CL0, or a low-power state, which RUN and SHED refuse (R385; log entry 117). -/
def linkPower (st : Nat) (s : State) : State :=
  if !(bit (s.reg .usbStatus) 31) || (s.running && st ≠ 0) then s else s.setRf .usbStatus 0 27 26 st

/-! ### The commands -/

/-- FUNCTION_LEVEL_RESET (R387): the function returns to D0. -/
def execFunctionLevelReset (s : State) : Out := .next ((hostReset s).setRf .usbStatus 0 24 24 0)

/-- USB4_LINK_DOWN (R387). -/
def execUsb4LinkDown (s : State) : Out := .next (linkDown s)

/-- D3HOT_ENTRY (R387). -/
def execD3hotEntry (s : State) : Out :=
  .next (if bit (s.reg .usbStatus) 31 then s.setRf .usbStatus 0 24 24 1 else s)

/-- D0_RETURN (R387). -/
def execD0Return (s : State) : Out := .next (returnD0 s)

/-- FEED_QUALIFY (R427). -/
def execFeedQualify (b : Bool) (va vb : Half) (s : State) : Out := .next (feedQualify b va vb s)

/-- FEED_LOSS (R428). -/
def execFeedLoss (b ov : Bool) (va vb ns : Half) (s : State) : Out := .next (feedLoss b ov va vb ns s)

/-- VIN_A_STABLE (R428). -/
def execVinAStable (ns : Half) (s : State) : Out := .next (vinAStable ns s)

/-- HOLDUP_CHARGED (R417). -/
def execHoldupCharged (s : State) : Out := .next (holdupCharged s)

/-- THERMAL_SAMPLE (R438). -/
def execThermalSample (temps : List (Fin 273 × Half)) (s : State) : Out := .next (thermalSample temps s)

/-- SHED_CLEAR (R439). -/
def execShedClear (s : State) : Out := .next (shedClear s)

/-- RESET_N (R351). -/
def execResetN (s : State) : Out := .next (resetN s)

/-- WATCHDOG (R419). -/
def execWatchdog (s : State) : Out := .next (watchdog s)

/-- USB4_LINK_UP (R384). -/
def execUsb4LinkUp (rate : Fin 4) (s : State) : Out := .next (linkUp rate s)

/-- LINK_POWER_STATE_ENTRY (R385). -/
def execLinkPowerStateEntry (st : Fin 4) (s : State) : Out := .next (linkPower st s)

end Sys2Proof.Machine
end

