-- ==== Sys2Proof/Machine/Boot.lean ====
section
/-! DEFINITION. Start-up from ROM to READY, ticks with what may start at them, presence and tamper (R410 to R418, R455, R456, R465 to
R471, R478, R479, R482 to R485). -/

namespace Sys2Proof.Machine

/-! ### Firmware images (R469 to R471, R479) -/

/-- SECVER of a firmware image. -/
def fwSecVer (img : List Byte) : Nat := leAt img 16 1

/-- Whether a firmware image has the length its header gives, is signed, and has a SECVER not below the fuses' (R413, R470, R471). -/
def fwRunnable (s : State) (img : List Byte) : Bool :=
  let n := leAt img 8 4
  img.length = n && 352 ≤ n && n ≤ 8388608 &&
    Config.ecdsaOk Config.vendorKey (Config.sha384 (img.take (n - 96))) (img.drop (n - 96)) && s.hub.fuses.ver ≤ fwSecVer img

/-- Whether the header of a firmware image is that of R469 for this module. -/
def fwHeaderOk (img : List Byte) : Bool :=
  leAt img 0 4 = 0x46575A49 && leAt img 4 2 = 1 && leAt img 18 2 = 0x256 && leAt img 20 1 = 0xB1 &&
    1 ≤ leAt img 21 1 && leAt img 21 1 ≤ 3 && fwSetMin img ≤ fwSetVer img && fwSecVer img ≤ 127 &&
    leAt img 6 2 = 0 && leAt img 17 1 = 0 && leAt img 26 230 = 0

/-- Whether the loader swaps an image in (R479). -/
def fwVerify (s : State) (img : List Byte) : Bool := fwHeaderOk img && fwRunnable s img

/-- Change the firmware's state. -/
def State.modFw (s : State) (f : Firmware → Firmware) : State := { s with hub := { s.hub with fw := f s.hub.fw } }

/-- A FALLBACK record (R451). -/
def cairnFallback (cause refused restored : Nat) (fromFw : Bool) (s : State) : State :=
  cairnWrite 3 0 (leBytes 1 cause ++ leBytes 3 0 ++ leBytes 4 refused ++ leBytes 4 restored) true fromFw s

/-- The slots are exchanged, with a FIRMWARE_SWAP record (R479). -/
def exchangeSlots (s : State) : State :=
  let f := s.hub.fw
  let s := s.modFw fun f => { f with active := f.staging, staging := f.active }
  cairnWrite 4 0 (leBytes 4 (fwVersion f.staging) ++ leBytes 4 (fwVersion f.active)) false false s

/-- The update session closes and its state is IDLE. -/
def closeUpdate (s : State) : State := s.modFw fun f => { f with session := none, st := .idle, epoch := 0 }

/-- A swap is refused: the active image stays, and the session's chunks are discarded (R479). -/
def refuseSwap (s : State) : State :=
  let f := s.hub.fw
  (closeUpdate (cairnFallback 1 (fwVersion f.staging) (fwVersion f.active) false s)).modFw fun f => { f with staging := [] }

/-- LOADER step 1: a swap that is due, forward or back (R413, R479, R482, R483). -/
def loaderSwap (s : State) : State :=
  let f := s.hub.fw
  let s := s.modFw fun f => { f with swapDue := false, backDue := none }
  match f.backDue with
  | some c =>
    if fwVerify s f.staging then
      (closeUpdate (exchangeSlots s)).modFw fun x => { x with fellBack := some (c, fwVersion f.active, fwVersion f.staging) }
    else refuseSwap s
  | none =>
    if !f.swapDue then s
    else if fwVerify s f.staging then (exchangeSlots s).modFw fun x => { x with st := .confirming }
    else refuseSwap s

/-- LOADER: a fallback that is due after a watchdog begins with its own reset; else the loader starts the active image, the staged one where
only that passes, or stays and serves updates (R413, R482, R483; log entry 124). -/
def loaderRun (s : State) : State :=
  if s.hub.fw.backDue.isSome && s.rf .rstcause 0 31 28 ≠ 5 then moduleReset 5 s
  else
  let s := loaderSwap s
  let f := s.hub.fw
  if fwRunnable s f.active then { s with phase := .firmware }
  else if fwRunnable s f.staging then
    let s := cairnFallback 1 (fwVersion f.active) (fwVersion f.staging) false (exchangeSlots s)
    let s := closeUpdate (s.setRf .rstcause 0 31 28 5)
    { s with phase := .firmware }
  else { s with phase := .loader }

/-- ROM: the wipe, then the first loader copy that verifies; 0 is the result of a copy that does. A module that no feed supplies, or that has
halted, runs nothing (R410, R412, R420, R428). -/
def romLoader (c1 c2 : Byte) (bad : Option (Fin 4096)) (s : State) : State :=
  if s.phase ≠ .rom || s.mode ≠ .starting || s.hub.stuck || s.hub.supply = .off then s
  else
    let s := finishWipe (wipeSecure 3 bad s)
    if c1 = 0 || c2 = 0 then loaderRun s
    else cairnWrite 2 0 [c1, c2] true false { s with hub := { s.hub with stuck := true } }

/-- LOADER_RETRY (R412). -/
def loaderRetry (c1 c2 : Byte) (s : State) : State :=
  if s.phase ≠ .rom || s.mode ≠ .starting || !s.hub.stuck || s.hub.supply = .off || (c1 ≠ 0 && c2 ≠ 0) then s
  else loaderRun { s with hub := { s.hub with stuck := false } }

/-! ### Tamper (R466, R467) -/

/-- A tamper response (R402, R467). -/
def tamperResponse (bad : Option (Fin 4096)) (s : State) : State :=
  inOneCycle (fun s =>
    let s := wipeSecure 1 bad s
    let s := if (storedKey s).isSome && s.hub.fuses.tampers < 31 then
        { s with hub := { s.hub with fuses := { s.hub.fuses with tampers := s.hub.fuses.tampers + 1 } } } else s
    endPresence (fire 6 0 (cairnWrite 0x80 0 [if s.hub.lid then 1 else 2] true true s))) s

/-- TAMPER: a source opens; a condition that appears while the hub runs, which it does from ROM on, brings the response at once, any other
at the next start-up (R412, R466, R467). -/
def tamperOp (mesh : Bool) (bad : Option (Fin 4096)) (s : State) : State :=
  let was := s.tampered
  let s := { s with hub := { s.hub with lid := s.hub.lid || !mesh, mesh := s.hub.mesh || mesh } }
  if was || s.hub.supply = .off || s.mode = .off then s else tamperResponse bad s

/-! ### FIRMWARE (R414, R484, R485, R487) -/

/-- A settings slot the firmware can use (R484). -/
def usableSlot (img : List Byte) : SetSlot → Option (Nat × Nat × SetRec)
  | .good v g r => if fwSetMin img ≤ v && v ≤ fwSetVer img then some (v, g, r) else none
  | _ => none

/-- The slot the firmware reads: its version, generation, record and number (R484). -/
def chooseSlot (img : List Byte) (l : Vector SetSlot 2) : Option (Nat × Nat × SetRec × Fin 2) :=
  match usableSlot img l[0], usableSlot img l[1] with
  | none, none => none
  | some x, none => some (x.1, x.2.1, x.2.2, 0)
  | none, some y => some (y.1, y.2.1, y.2.2, 1)
  | some x, some y => if x.2.1 < y.2.1 then some (y.1, y.2.1, y.2.2, 1) else some (x.1, x.2.1, x.2.2, 0)

/-- No slot can be used: the defaults, in memory (R485). -/
def noSettings (s : State) : State :=
  let x := s.hub.settings
  let v := fwSetVer s.hub.fw.active
  let s := { s with hub := { s.hub with settings := { slots := x.slots, version := v, unreadable := true } } }
  if s.hub.fw.st = .confirming then s.setRf .updHealth 0 31 30 2 else s

/-- FIRMWARE step 1: the settings (R485). -/
def readSettings (flashOk : Bool) (s : State) : State :=
  let x := s.hub.settings
  let v := fwSetVer s.hub.fw.active
  match chooseSlot s.hub.fw.active x.slots with
  | some (w, g, r, i) =>
    if w = v then { s with hub := { s.hub with settings := { slots := x.slots, slot := i, version := v, gen := g, cur := r } } }
    else if !flashOk then noSettings s
    else
      let s := writeGeneration r { s with hub := { s.hub with settings := { slots := x.slots, slot := i, version := w, gen := g, cur := r } } }
      let s := { s with hub := { s.hub with settings := { s.hub.settings with migrated := true } } }
      cairnWrite 5 0 (leBytes 2 w ++ leBytes 2 v) false true (fire 19 0 s)
  | none =>
    if x.slots[0] = .erased && x.slots[1] = .erased && flashOk then
      { s with hub := { s.hub with settings := { slots := x.slots.set 0 (.good v 1 {}), version := v, gen := 1 } } }
    else noSettings s

/-- The registers that settings give at start-up: clock source, voltages, pin-safe map, lane MACs, serial number (R352, R332, R337,
R487); the first byte of MACBASE is its most significant octet (DESIGN CHOICE, log entry 106). -/
def applySettings (refclk : Bool) (s : State) : State :=
  let s := (List.range 192).foldl (fun s p => s.setReg .pinSafe p 0 (at32 (s.setting (0x100 + p) 1 % 32) 0)) s
  let s := (List.range 16).foldl (fun s b => s.setRf .iobank b 31 31 (s.setting (0x40 + b) 1)) s
  let mac := beNat ((List.range 6).map fun i => s.hub.settings.cur.byte (0x18 + i))
  let s := (List.range 32).foldl (fun s l =>
    let m := (mac + l) % 2 ^ 48
    (s.setReg .macLo l 0 (BitVec.ofNat 32 m)).setReg .macHi l 0 (BitVec.ofNat 32 (m / 2 ^ 32))) s
  let s := { s with hub := { s.hub with
    serial := (List.range 8).map fun i => s.hub.settings.cur.byte (0x10 + i)
    autoNames := [s.setting 0x21 1, s.setting 0x22 1] } }
  let ref := s.setting 0x20 1
  let s := s.setRf .clkstat 0 1 0 ref
  if ref ≠ 0 && !refclk then cairnWrite 0x78 0 [] false true (s.setRf .clkstat 0 2 2 1) else s

/-- FIRMWARE: settings, clocks, voltages, the pin-safe map, SYNC_OUT (R414, R415, R465, R467, R483). -/
def firmwareOp (refclk flashOk : Bool) (bad : Option (Fin 4096)) (s : State) : State :=
  if s.phase ≠ .firmware || s.mode ≠ .starting || s.hub.supply = .off then s
  else
    let s := readSettings flashOk { s with fwVer := BitVec.ofNat 32 (fwVersion s.hub.fw.active) }
    let s := if s.tampered then finishWipe (tamperResponse bad s) else s
    let s := applySettings refclk (unwrapKey s)
    let t := s.frame.time
    let s := { s with edge := { s.edge with mapped := true, syncOn := true }
                      hub := { s.hub with pres := { s.hub.pres with keySince := guardOpt s.hub.pres.keyHeld t
                                                                    pinSince := guardOpt s.hub.pres.pinHeld t } } }
    let s := cairnWrite 1 0 (leBytes 1 (s.rf .rstcause 0 31 28)) false true s
    let s := { s with phase := .standby, mode := .standby }
    let s := s.setRf .boottime 0 31 16 (min 65535 (t / 1000000))
    match s.hub.fw.fellBack with
    | none => s
    | some x => (cairnFallback x.1 x.2.1 x.2.2 true (fire 18 0 s)).modFw fun f => { f with fellBack := none }

/-! ### SELFTEST (R416) -/

/-- A bank whose sub-array has a failing column and no spare for it is FAILED (R232). -/
def failBank (b a : Nat) (s : State) : State :=
  cairnWrite 0x42 b (leBytes 1 a) false true (s.modBank b fun k => { k with failed := true, power := .off, recorded := .off })

/-- The spare columns that a sub-array has left: of two, those that neither fuses nor soft repairs use (R231). -/
def sparesLeft (s : State) (b a : Nat) : Nat := 2 - (Config.fused b a).val - ((s.bank b).soft.filter fun x => x.1 == a).length

/-- A newly failing column is replaced with a spare of its sub-array, where one is left (R231, R232; log entry 112). -/
def softRepair (b a col : Nat) (s : State) : State :=
  if (s.bank b).soft.contains (a, col) then s
  else if sparesLeft s b a = 0 then failBank b a s
  else cairnWrite 0x41 b (leBytes 1 a ++ leBytes 1 col) false true (s.modBank b fun k => { k with soft := k.soft ++ [(a, col)] })

/-- Bank tests: soft repairs, then the banks that fail (R231, R232). -/
def testBanks (r : SelfTest) (s : State) : State :=
  let s := (List.range 272).foldl (fun s b => s.modBank b fun k => { k with power := .retain, recorded := .retain }) s
  let s := r.soft.foldl (fun s x => softRepair x.1 x.2.1 x.2.2 s) s
  r.banks.foldl (fun s x => failBank x.1 x.2 s) s

/-- Fold tests (R416 order 3). -/
def testFolds (r : SelfTest) (s : State) : State :=
  let s := (List.range 272).foldl (fun s pf => s.modFold pf fun f => { f with power := .retain }) s
  r.folds.foldl (fun s x =>
    cairnWrite 0x33 x.1 [x.2] false true (s.modFold x.1 fun f => { f with role := .isolated, power := .off })) s

/-- Engine tests (R416 order 4). -/
def testEngines (r : SelfTest) (s : State) : State :=
  let s := (List.range 32).foldl (fun s e => s.modEng e fun g => { g with power := .retain, recorded := .retain }) s
  r.engines.foldl (fun s x =>
    cairnWrite 0x50 x.1 [x.2] false true (s.modEng x.1 fun g => { g with failed := true, power := .off, recorded := .off })) s

/-- How many different items a list names. -/
def distinct {n : Nat} (l : List (Fin n)) : Nat := l.eraseDups.length

/-- SELFTEST: the tests in their order, then READY and the tick of epoch 0 (R311, R416). -/
def selfTest (r : SelfTest) (s : State) : State :=
  if s.phase ≠ .standby || s.mode ≠ .standby then s
  else
    let s := r.bridges.foldl (fun s b => bridgeLost b.val true s) (testBanks r (wipeDue s))
    let s := testEngines r (testFolds r s)
    let s := r.lanes.foldl (fun s l => cairnWrite 0x51 l.val [] false true (s.modLane l.val fun x => { x with failed := true })) s
    let s := s.setReg .selftest 0 0 (at32 (distinct (r.folds.map (·.1))) 23 ||| at32 ((List.range 272).countP fun b => (s.bank b).failed) 14 |||
      at32 (distinct (r.engines.map (·.1))) 8 ||| at32 (distinct r.bridges) 4)
    let t := s.frame.time
    let s := s.setRf .boottime 0 15 0 (min 65535 (t / 1000000))
    let s := s.modFw fun f => { f with readyAt := some t }
    let auto := s.hub.autoNames.any (· < 3) && s.hub.fuses.lc ≠ 3
    frameTick { s with phase := .ready, mode := .ready, frame := { s.frame with epoch := BitVec.allOnes 48 }
                       ldr := { s.ldr with actAuto := auto.toNat } }

/-! ### Ticks and what starts at them (R24, R302, R477, R478) -/

/-- The swap of firmware starts: the stop of R431, then the reset (R478). -/
def startSwap (s : State) : State := moduleReset 4 ((haltModule true s).modFw fun f => { f with swapDue := true })

/-- A tick, at which a scheduled swap may start (R24, R478). -/
def tickOp (s : State) : State :=
  if !s.tickDue then s
  else
    let s := takeTick s
    if s.hub.fw.st = .scheduled && s.hub.fw.epoch ≤ s.frame.epoch.toNat then startSwap s else s

/-- ACTIVATION_T0: the tick that is T0 of the pending activation (R302). -/
def t0Op (s : State) : State :=
  if s.ldr.act == .pending && s.ldr.actArmed && s.ldr.actEpoch ≤ s.frame.epoch.toNat + 1 then tickOp s else s

/-- UPDATE_SWAP: at the tick a schedule names; at once in LOADER, and without ticks for E = 0 (R413, R478). -/
def updateSwap (s : State) : State :=
  let f := s.hub.fw
  if f.st ≠ .scheduled then s
  else if s.phase = .loader then moduleReset 4 (s.modFw fun f => { f with swapDue := true })
  else if s.ticks then (if f.epoch ≤ s.frame.epoch.toNat + 1 then tickOp s else s)
  else if (s.mode = .standby || s.mode = .halted) && f.epoch = 0 then startSwap s else s

/-! ### Presence (R455, R456) -/

/-- Change the presence logic. -/
def State.modPres (s : State) (f : Presence → Presence) : State := { s with hub := { s.hub with pres := f s.hub.pres } }

/-- Whether holds are timed (R415, R455). -/
def State.timesHolds (s : State) : Bool := s.fwRuns && s.mode ≠ .off

/-- PRESENCE_HOLD (R455). -/
def presenceHold (ev : HoldEvent) (s : State) : State :=
  let t := guardOpt s.timesHolds s.frame.time
  match ev with
  | .keyAppears => if s.hub.pres.keyHeld then s else s.modPres fun p => { p with keyHeld := true, keySince := t }
  | .keyLeaves => s.modPres fun p => { p with keyHeld := false, keySince := none }
  | .pinLow => if s.hub.pres.pinHeld then s else s.modPres fun p => { p with pinHeld := true, pinSince := t }
  | .pinHigh => s.modPres fun p => { p with pinHeld := false, pinSince := none }
  | .wrongField => if s.timesHolds then s.count .presCount 0 15 0 1 else s

/-- PRESENCE_ON: a hold of 2 s completes (R455, R456). -/
def presenceOn (key : Bool) (s : State) : State :=
  match if key then s.hub.pres.keySince else s.hub.pres.pinSince with
  | none => s
  | some t =>
    let s := advanceTime (t + 2000000000) s
    let was := s.present
    let ends := s.frame.time + 1000000000 * s.setting 0x24 2
    let s := s.modPres fun p =>
      { p with source := if key then 1 else 2, ends := ends, keySince := if key then none else p.keySince
               pinSince := if key then p.pinSince else none }
    let s := s.count .presCount 0 31 16 1
    if was then s else fire 7 0 s

/-- PRESENCE_OFF: the window runs out (R456). -/
def presenceOff (s : State) : State := if s.present then endPresence (advanceTime s.hub.pres.ends s) else s

/-! ### The commands -/

/-- LOADER (R412, R413). -/
def execLoader (c1 c2 : Byte) (bad : Option (Fin 4096)) (s : State) : Out := .next (romLoader c1 c2 bad s)

/-- LOADER_RETRY (R412). -/
def execLoaderRetry (c1 c2 : Byte) (s : State) : Out := .next (loaderRetry c1 c2 s)

/-- FIRMWARE (R414). -/
def execFirmware (refclk flashOk : Bool) (bad : Option (Fin 4096)) (s : State) : Out := .next (firmwareOp refclk flashOk bad s)

/-- SELFTEST (R416). -/
def execSelftest (r : SelfTest) (s : State) : Out := .next (selfTest r s)

/-- TICK (R24). -/
def execTick (s : State) : Out := .next (tickOp s)

/-- ACTIVATION_T0 (R302). -/
def execActivationT0 (s : State) : Out := .next (t0Op s)

/-- UPDATE_SWAP (R478). -/
def execUpdateSwap (s : State) : Out := .next (updateSwap s)

/-- TAMPER (R467). -/
def execTamper (mesh : Bool) (bad : Option (Fin 4096)) (s : State) : Out := .next (tamperOp mesh bad s)

/-- PRESENCE_HOLD (R455). -/
def execPresenceHold (ev : HoldEvent) (s : State) : Out := .next (presenceHold ev s)

/-- PRESENCE_ON (R455). -/
def execPresenceOn (key : Bool) (s : State) : Out := .next (presenceOn key s)

/-- PRESENCE_OFF (R456). -/
def execPresenceOff (s : State) : Out := .next (presenceOff s)

end Sys2Proof.Machine
end

