-- ==== Sys2Proof/Machine/Update.lean ====
section
/-! DEFINITION. Firmware update: the session, its schedule, health and fallback (R469 to R483). -/

namespace Sys2Proof.Machine

/-! ### The session (R472 to R474) -/

/-- The chunks of an image of a length (R470). -/
def chunkCount (n : Nat) : Nat := (n + 4095) / 4096

/-- The response of UPDATE_OPEN (R395). -/
def openAnswer (x : UpdSession) : Rsp := { data := leBytes 4 (chunkCount x.length) ++ leBytes 4 x.chunks.length }

/-- A new session for a port: the staging slot is emptied (R473). -/
def startUpdate (x : UpdSession) (s : State) : Rsp × State :=
  (openAnswer x, (closeUpdate s).modFw fun f => { f with session := some x, staging := [] })

/-- UPDATE_OPEN (R473). -/
def updateOpenOp : Cmd := fun q s =>
  let n := leAt q.data 48 4
  let take := leAt q.data 56 1 % 2 = 1
  let new : UpdSession := { svc := q.svc, digest := bytesAt q.data 0 48, length := n, version := leAt q.data 52 4 }
  if q.arg ≠ 0 || q.data.length ≠ 64 || n < 352 || 8388608 < n || 2 ≤ leAt q.data 56 1 || leAt q.data 57 7 ≠ 0 ||
      (take && !q.svc) then (.err stBadArg, s)
  else if s.hub.fuses.lc = 3 then (.err stWrongLc, s)
  else if s.hub.fw.st = .confirming then (.err stBusy, s)
  else
    match s.hub.fw.session with
    | none => if q.flashOk then startUpdate new s else (.err stNoSpace, s)
    | some x =>
      if x.svc = q.svc then if x.digest = new.digest then (openAnswer x, s) else (.err stOwned, s)
      else if !take then (.err stOwned, s)
      else if !s.present then (.err stNeedPresence, s)
      else if x.digest = new.digest then
        let x := { x with svc := true }
        (openAnswer x, s.modFw fun f =>
          { f with session := some x, st := if f.st = .scheduled then .verified else f.st, epoch := 0 })
      else if q.flashOk then startUpdate new s else (.err stNoSpace, s)

/-- What an update command of the owner runs on (R458, R473). -/
def withUpdate (q : Req) (f : UpdSession → State → Rsp × State) (s : State) : Rsp × State :=
  if s.hub.fuses.lc = 3 then (.err stWrongLc, s)
  else match s.hub.fw.session with
    | none => (.err stNotReady, s)
    | some x => if x.svc = q.svc then f x s else (.err stOwned, s)

/-- Why the header in chunk 0 is refused (R471, R475). -/
def headerErr (s : State) (x : UpdSession) (l : List Byte) : Option Nat :=
  if leAt l 0 4 ≠ 0x46575A49 || leAt l 4 2 ≠ 1 || leAt l 18 2 ≠ 0x256 || leAt l 20 1 ≠ 0xB1 || leAt l 21 1 < 1 || 3 < leAt l 21 1 ||
      leAt l 8 4 ≠ x.length || leAt l 12 4 ≠ x.version then some stCheckFail
  else if fwSecVer l < s.hub.fuses.ver then some stVersion else none

/-- The image a complete session holds. -/
def sessionImage (x : UpdSession) : List Byte := (x.chunks.flatMap (·.2)).take x.length

/-- Why a complete image is refused (R470, R475). -/
def imageErr (x : UpdSession) : Option Nat :=
  let l := sessionImage x
  if Config.sha384 l ≠ x.digest then some stCheckFail
  else if !(Config.ecdsaOk Config.vendorKey (Config.sha384 (l.take (x.length - 96))) (l.drop (x.length - 96))) then some stSignature
  else none

/-- A chunk that is not held is written, and the checks due with it are made (R474, R475). -/
def takeChunk (k : Nat) (data : List Byte) (x : UpdSession) (s : State) : Rsp × State :=
  let x := { x with chunks := Store.set x.chunks [] k data }
  let held := x.chunks.length
  let s := s.modFw fun f => { f with session := some x, st := .receiving }
  let s := if held % 128 = 0 then fire 16 0 s else s
  let whole := held = chunkCount x.length
  match if k = 0 then headerErr s x data else none with
  | some e => (.err e, closeUpdate s)
  | none =>
    if !whole then ({}, s)
    else match imageErr x with
      | some e => (.err e, closeUpdate s)
      | none => ({}, fire 17 0 (s.modFw fun f => { f with st := .verified, staging := sessionImage x }))

/-- UPDATE_CHUNK (R474). -/
def updateChunkOp : Cmd := fun q s =>
  if q.data.length ≠ 4100 then (.err stBadArg, s)
  else withUpdate q (fun x s =>
    let data := q.data.take 4096
    if chunkCount x.length ≤ q.arg || crc32c data ≠ leAt q.data 4096 4 then (.err stBadArg, s)
    else if !(Store.get x.chunks [] q.arg).isEmpty then ({}, s)
    else if !q.flashOk then (.err stNoSpace, s)
    else takeChunk q.arg data x s) s

/-- Byte `i` of the chunk bitmap (R396). -/
def chunkByte (x : UpdSession) (i : Nat) : Byte :=
  BitVec.ofNat 8 ((List.range 8).foldl (fun a k => if (Store.get x.chunks [] (8 * i + k)).isEmpty then a else a + 2 ^ k) 0)

/-- UPDATE_STATUS (R396). -/
def updateStatusOp : Cmd := noArgs fun _ s =>
  let f := s.hub.fw
  let head := leBytes 1 (updCode f.st) ++ leBytes 1 (updOwner s) ++ [0, 0]
  let ep := leBytes 6 (if f.st = .scheduled then f.epoch else 0) ++ [0, 0]
  match f.session with
  | none => ({ data := head ++ leBytes 8 0 ++ ep ++ leBytes 304 0 }, s)
  | some x =>
    ({ data := head ++ leBytes 4 (chunkCount x.length) ++ leBytes 4 x.chunks.length ++ ep ++ bytesAt x.digest 0 48 ++
        (List.range 256).map (chunkByte x) }, s)

/-- UPDATE_SCHEDULE (R477). -/
def updateScheduleOp : Cmd := fun q s =>
  let e := leAt q.data 0 6
  if q.arg ≠ 0 || q.data.length ≠ 8 then (.err stBadArg, s)
  else withUpdate q (fun x s =>
    if leAt q.data 6 2 ≠ 0 || (e ≠ 0 && e ≤ s.frame.epoch.toNat) then (.err stBadArg, s)
    else if s.hub.fw.st ≠ .verified && s.hub.fw.st ≠ .scheduled then (.err stNotReady, s)
    else if s.actBusy then (.err stBusy, s)
    else if x.version < s.fwVer.toNat && !s.present then (.err stVersion, s)
    else ({}, s.modFw fun f => { f with st := .scheduled, epoch := e })) s

/-- UPDATE_ABORT (R476). -/
def updateAbortOp : Cmd := noArgs fun q s =>
  withUpdate q (fun _ s =>
    if s.hub.fw.st = .confirming then (.err stBusy, s)
    else ({}, (closeUpdate s).modFw fun f => { f with staging := [] })) s

/-! ### Health and fallback (R480 to R483) -/

/-- HEALTH_CONFIRMED: both parts of the window are met, and the firmware's own checks passed (R480, R481). -/
def healthConfirmed (s : State) : State :=
  match s.hub.fw.readyAt with
  | none => s
  | some t =>
    let late := t + 1000000000 * s.setting 0x30 4
    let due := t + 1000000000 * s.setting 0x28 4
    if s.hub.fw.st ≠ .confirming || s.rf .updHealth 0 31 30 = 2 || (s.reg .updGoodfr).toNat < s.setting 0x2C 4 ||
        late < max due s.frame.time then s
    else
      let s := advanceTime due s
      let s := { s with hub := { s.hub with fuses := { s.hub.fuses with ver := fwSecVer s.hub.fw.active } } }
      closeUpdate (fire 25 0 (s.setRf .updHealth 0 31 30 1))

/-- FALLBACK: the moment that comes first, then the reset; the loader swaps back (R482, R483). -/
def fallbackOp (s : State) : State :=
  match s.hub.fw.readyAt with
  | none => s
  | some t =>
    if s.hub.fw.st ≠ .confirming then s
    else
      let refused := s.rf .updHealth 0 31 30 = 2 && s.setting 0x28 4 ≤ s.setting 0x30 4
      let s := advanceTime (t + 1000000000 * (if refused then s.setting 0x28 4 else s.setting 0x30 4)) s
      moduleReset 5 (s.modFw fun f => { f with backDue := some (if refused then 3 else 2) })

/-! ### The commands -/

/-- UPDATE_OPEN (R473). -/
def execUpdateOpen (m : MboxReq) (s : State) : Out := .next (mboxCmd 0x20 updateOpenOp m s)

/-- UPDATE_CHUNK (R474). -/
def execUpdateChunk (m : MboxReq) (s : State) : Out := .next (mboxCmd 0x21 updateChunkOp m s)

/-- UPDATE_STATUS (R396). -/
def execUpdateStatus (m : MboxReq) (s : State) : Out := .next (mboxCmd 0x22 updateStatusOp m s)

/-- UPDATE_SCHEDULE (R477). -/
def execUpdateSchedule (m : MboxReq) (s : State) : Out := .next (mboxCmd 0x23 updateScheduleOp m s)

/-- UPDATE_ABORT (R476). -/
def execUpdateAbort (m : MboxReq) (s : State) : Out := .next (mboxCmd 0x24 updateAbortOp m s)

/-- HEALTH_CONFIRMED (R481). -/
def execHealthConfirmed (s : State) : Out := .next (healthConfirmed s)

/-- FALLBACK (R482). -/
def execFallback (s : State) : Out := .next (fallbackOp s)

end Sys2Proof.Machine
end

