-- ==== Sys2Proof/Machine/Hub.lean ====
section
/-! DEFINITION. The hub's other mailbox commands: life cycle, fold map, power, probes, debug and register access, the Cairn (R395 to
R398, R437, R453, R459 to R462). -/

namespace Sys2Proof.Machine

/-! ### Life cycle (R459 to R462) -/

/-- The permitted transitions (R459). -/
def lcAllowed (old new : Nat) : Bool := (old = 0 && new = 1) || (old = 1 && new = 2) || (old = 2 && new = 1) || (old ≠ 3 && new = 3)

/-- A settings record without keys and autoload choices (R462). -/
def emptyKeys (r : SetRec) : SetRec :=
  let r := r.putAll 0x200 (List.replicate 512 0)
  { (r.put 0x21 0xFF).put 0x22 0xFF with key := none }

/-- Entry to DECOMMISSIONED (R462). -/
def decommission (s : State) : State :=
  let s := if s.ldr.inForce.isSome then dropConfig s else s
  let s := { s with ldr := { s.ldr with slots := Vector.replicate 3 {} } }
  let s := (closeUpdate s).modFw fun f => { f with staging := [] }
  let r := emptyKeys s.hub.settings.cur
  writeGeneration r (writeGeneration r s)

/-- What an accepted transition does (R461, R462). -/
def setLifecycle (new : Nat) (bad : Option (Fin 4096)) (s : State) : State :=
  let f := s.hub.fuses
  let back := if f.lc = 2 && new = 1 then 1 else 0
  let s := { s with hub := { s.hub with fuses := { f with lc := new, returns := f.returns + back } } }
  let s := finishWipe (wipeSecure 2 bad s)
  let s := fire 24 0 (cairnWrite 0x81 0 (leBytes 1 f.lc ++ leBytes 1 new) true true s)
  if new = 3 then decommission s else unwrapKey s

/-- LIFECYCLE_SET (R460). -/
def lifecycleSetOp : Cmd := fun q s =>
  let new := leAt q.data 0 1
  let f := s.hub.fuses
  if q.arg ≠ 0 || q.data.length ≠ 4 || 3 < new || leAt q.data 1 3 ≠ 0 then (.err stBadArg, s)
  else if !s.present then (.err stNeedPresence, s)
  else if !(lcAllowed f.lc new) then (.err stWrongLc, s)
  else if s.ldr.session.isSome || s.actBusy || s.hub.fw.st = .scheduled || s.hub.fw.st = .confirming ||
      (new = 3 && s.mode ≠ .standby && s.mode ≠ .ready) then (.err stBusy, s)
  else if f.lc = 2 && new = 1 && 15 ≤ f.returns then (.err stNoSpace, s)
  else if new = 2 && (List.range 4).all (fun k => (customerKey s k).isNone) then (.err stCheckFail, s)
  else ({}, setLifecycle new q.bad s)

/-! ### FOLD_MAP (R396) -/

/-- An entry of the relocation table in force: an alternate that serves a logical fold is no alternate any more (R319). -/
def mapEntry (s : State) (lf : Nat) : Nat :=
  match s.ldr.inForce with
  | none => 0x3FFFF
  | some f =>
    let alt := match (f.reloc[lf]?).bind (·.2) with
      | none => 0x1FF
      | some a => if (List.range 256).any fun k => s.pfOf k == some a then 0x1FF else a
    (s.pfOf lf).getD 0x1FF + 512 * alt

/-- The word of a physical fold. -/
def mapWord (s : State) (pf : Nat) : Word :=
  at32 (foldPower (s.fold pf)) 30 ||| bit32 (s.fold pf).lost 29 ||| bit32 (s.bank pf).failed 28 ||| (readFoldId s pf &&& 0x03FFFFFF#32)

/-- FOLD_MAP (R396). -/
def foldMapOp : Cmd := noArgs fun _ s =>
  ({ data := ((List.range 256).flatMap fun lf => leBytes 4 (mapEntry s lf)) ++
      (List.range 272).flatMap fun pf => leBytes 4 (mapWord s pf).toNat }, s)

/-! ### POWER_STATE (R82, R84, R234, R303, R398, R435, R437) -/

/-- Whether an activation between T0 and T1 replaces the item that a record names; the module's own record is accepted (R303, R304). -/
def powReplaced (s : State) (r : PowRec) : Bool :=
  match s.ldr.load with
  | none => false
  | some l => (l.img.full && r.kind ≠ 3) || (r.kind = 0 && l.replaced.contains r.index.toNat) ||
      (r.kind = 1 && (lfsOf l.img.pens).contains r.index.toNat)

/-- Why a record is refused on its own, against the recorded states as they will stand before its command; in SHED every pen with SHED = 1
that is recorded ON is shed (R82, R84, R285, R303, R437, R440). -/
def powRefused (s : State) (r : PowRec) : Option Nat :=
  let i := r.index.toNat
  if powReserved r then some stBadArg
  else
    let e := match r.kind.toNat with
      | 0 => match s.penAt i with
        | none => some stBadArg
        | some p =>
          if r.state = 2 && (p.recorded = .off || p.unloaded) then some stNotReady
          else if r.state = 2 && p.cfg.shed && p.recorded = .on && s.mode = .shed then some stBusy else none
      | 1 => match s.bankOf i with
        | none => some stBadArg
        | some b => if (s.bank b).failed then some stBadArg else none
      | 2 => if 32 ≤ i || (s.engine i).failed then some stBadArg else none
      | _ =>
        if s.ldr.inForce.isNone || (r.state = 1 && !(bit (s.reg .bootstat) 25)) then some stNotReady else none
    match e with
    | some st => some st
    | none => if powReplaced s r then some stBusy else none

/-- Whether the configuration in force needs a logical fold's bank ON (R234). -/
def bankHeld (s : State) (lf : Nat) : Bool :=
  let pen := match s.penOf lf with
    | none => false
    | some p => 0 < p.cfg.carried || p.recorded == .on
  pen || match s.ldr.inForce, s.bankOf lf with
    | some f, some b => f.resv.any fun x => resvUsed x && x.unit == b
    | _, _ => false

/-- Whether a logical fold's bank is to be ON and is not (R234). -/
def bankDark (s : State) (lf : Nat) : Bool :=
  bankHeld s lf && match s.bankOf lf with
    | none => false
    | some b => (s.bank b).recorded != .on

/-- Whether a record leaves a bank that R234 needs out of ON, in the state all records together leave. -/
def powDark (t : State) (r : PowRec) : Bool :=
  if r.kind = 1 then bankDark t r.index.toNat
  else if r.kind = 0 && r.state = 2 then match t.penAt r.index.toNat with
    | none => false
    | some p => p.members.any (bankDark t)
  else false

/-- POWER_STATE (R398, R437). -/
def powerStateOp : Cmd := fun q s =>
  let n := q.data.length / 4
  let l := (List.range n).map fun i => powRecOf (BitVec.ofNat 32 (leAt q.data (4 * i) 4))
  let before := s.hub.nextPower.foldl (fun s x => applyPower x s) s
  let items := l.filter fun r => r.kind ≠ 3
  let after := items.foldl (fun s x => applyPower x s) before
  if q.arg ≠ 0 || q.data.length % 4 ≠ 0 || n = 0 || 64 < n then (.err stBadArg, s)
  else
    let refused := fun r => match powRefused before r with
      | some st => some st
      | none => if powDark after r then some stBadArg else none
    match (List.range n).findSome? fun i => (l[i]?).bind fun r => (refused r).map fun st => (st, i) with
    | some (st, i) => ({ status := st, arg := i }, s)
    | none =>
      let run := (l.filter fun r => r.kind = 3 && !(r.state = 1 && s.mode = .shed)).getLast?
      let want := run.map (·.state == 1)
      ({}, { s with hub := { s.hub with nextPower := s.hub.nextPower ++ items
                                        nextRun := want.or s.hub.nextRun
                                        loadRun := if s.ldr.load.isSome then want.or s.hub.loadRun else s.hub.loadRun } })

/-! ### Probes (R277, R395, R398) -/

/-- The probe registers in the order PROBE_SETUP writes them. -/
def probeRegs : List RegName := [.probematch0, .probemask0, .probematch1, .probemask1, .probethr, .probectl]

/-- PROBE_SETUP (R398). -/
def probeSetupOp : Cmd := fun q s =>
  if 288 ≤ q.arg || q.data.length ≠ 24 || 3 ≤ leAt q.data 20 4 / 2 ^ 30 then (.err stBadArg, s)
  else
    ({}, (List.range 6).foldl (fun s i =>
      writeOf (probeRegs.getD i .probectl) q.arg (BitVec.ofNat 32 (leAt q.data (4 * i) 4)) s) s)

/-- PROBE_READ (R395). -/
def probeReadOp : Cmd := fun q s =>
  if 288 ≤ q.arg || !q.data.isEmpty then (.err stBadArg, s)
  else
    let word := fun (n : RegName) (j : Nat) => leBytes 4 (readReg s ⟨n, q.arg, j⟩).toNat
    ({ data := word .probecnt 0 ++ word .probestat 0 ++ (List.range 256).flatMap (word .nodeTrace) }, s)

/-! ### DEBUG_READ, REG_READ, REG_WRITE (R397) -/

/-- The most that DEBUG_READ returns of a space. -/
def debugMax (space : Nat) : Nat := if space = 0 then 16384 else if space = 1 then 4096 else 128

/-- A DEBUG_READ of a fold whose pen runs ahead waits in its mailbox until the pen is back in NORMAL (R164). -/
def debugWaits (m : MboxReq) (s : State) : Bool := runsAhead s (leAt m.payload 2 2)

/-- DEBUG_READ (R397). -/
def debugReadOp : Cmd := fun q s =>
  let space := leAt q.data 0 1
  let pf := leAt q.data 2 2
  let a := leAt q.data 4 4
  let n := leAt q.data 8 4
  if q.arg ≠ 0 || q.data.length ≠ 12 || 2 < space || leAt q.data 1 1 ≠ 0 || 272 ≤ pf || debugMax space < n then (.err stBadArg, s)
  else if space < 2 && s.hub.encrypted && !s.present then (.err stNeedPresence, s)
  else if debugShut s pf then (.err stIsolated, s)
  else if space = 0 then ({ data := (List.range n).flatMap fun i => leBytes 2 (s.iword pf (a + i)).toNat }, s)
  else if space = 1 then ({ data := (List.range n).flatMap fun i => leBytes 2 (s.dword pf (a + i)).toNat }, s)
  else
    let r := planesBytes pf a n (portTurn pf portCycles s)
    ({ data := r.1 }, r.2)

/-- Reads of consecutive registers. -/
def regReads (a : Nat) : Nat → State → List Byte × State
  | 0, s => ([], s)
  | n + 1, s =>
    let x := busRead a s
    let r := regReads (a + 4) n x.2
    (leBytes 4 x.1.toNat ++ r.1, r.2)

/-- REG_READ (R397). -/
def regReadOp : Cmd := fun q s =>
  let n := leAt q.data 0 4
  if q.data.length ≠ 4 || n = 0 || 256 < n then (.err stBadArg, s)
  else
    let r := regReads q.arg n s
    ({ data := r.1 }, r.2)

/-- Writes of consecutive registers, up to the first that is rejected: its address. -/
def regWrites (a : Nat) : List Word → State → Option Nat × State
  | [], s => (none, s)
  | w :: t, s =>
    let x := busWrite a w s
    if x.1 then regWrites (a + 4) t x.2 else (some a, x.2)

/-- REG_WRITE (R397). -/
def regWriteOp : Cmd := fun q s =>
  let n := q.data.length / 4
  if q.data.length % 4 ≠ 0 || n = 0 || 256 < n then (.err stBadArg, s)
  else
    let r := regWrites q.arg ((List.range n).map fun i => BitVec.ofNat 32 (leAt q.data (4 * i) 4)) s
    match r.1 with
    | none => ({}, r.2)
    | some a => ({ status := stBadArg, arg := a }, r.2)

/-! ### CAIRN_READ (R453) -/

/-- CAIRN_READ (R395, R453). -/
def cairnReadOp : Cmd := fun q s =>
  let s := wipeDue s
  let n := leAt q.data 0 4
  let l := if q.arg = 0xFFFFFFFF then s.cairn.recs.drop (s.cairn.recs.length - n)
    else (s.cairn.recs.filter fun r => q.arg ≤ r.index).take n
  if q.data.length ≠ 4 || n = 0 || 1023 < n then (.err stBadArg, s)
  else ({ data := leBytes 4 s.cairn.newest ++ leBytes 4 l.length ++ l.flatMap (·.bytes) }, s)

/-! ### The commands -/

/-- LIFECYCLE_SET (R460). -/
def execLifecycleSet (m : MboxReq) (s : State) : Out := .next (mboxCmd 0x41 lifecycleSetOp m s)

/-- FOLD_MAP (R396). -/
def execFoldMap (m : MboxReq) (s : State) : Out := .next (mboxCmd 0x48 foldMapOp m s)

/-- POWER_STATE (R437). -/
def execPowerState (m : MboxReq) (s : State) : Out := .next (mboxCmd 0x49 powerStateOp m s)

/-- PROBE_SETUP (R398). -/
def execProbeSetup (m : MboxReq) (s : State) : Out := .next (mboxCmd 0x50 probeSetupOp m s)

/-- PROBE_READ (R395). -/
def execProbeRead (m : MboxReq) (s : State) : Out := .next (mboxCmd 0x51 probeReadOp m s)

/-- DEBUG_READ (R397). -/
def execDebugRead (m : MboxReq) (s : State) : Out := .next (if debugWaits m s then s else mboxCmd 0x58 debugReadOp m s)

/-- REG_READ (R397). -/
def execRegRead (m : MboxReq) (s : State) : Out := .next (mboxCmd 0x60 regReadOp m s)

/-- REG_WRITE (R397). -/
def execRegWrite (m : MboxReq) (s : State) : Out := .next (mboxCmd 0x61 regWriteOp m s)

/-- CAIRN_READ (R453). -/
def execCairnRead (m : MboxReq) (s : State) : Out := .next (mboxCmd 0x38 cairnReadOp m s)

end Sys2Proof.Machine
end

