-- ==== Sys2Proof/Machine/Idle.lean ====
section
/-! DEFINITION. What happens while no command waits: one ACLK cycle of the clocked logic (log entry 2; R142, R148, R217, R227, R230, R239,
R328, R334). -/

namespace Sys2Proof.Machine

/-- The units of a fold in one cycle: a move that has no turn at its own bank's port goes on by one row, and where the mover has left the
plane port free the tally unit reads a row of its field (R58, R142, R148; log entry 118). -/
def unitCycle (pf : Nat) (s : State) : State :=
  let s := if ownMove s pf && s.bankServes pf then s else moveRow pf s
  if (s.fold pf).portAt = some s.frame.time then s else histoRow pf s

/-- What acts in an ACLK cycle: a wipe that ends, every bank's port, the plane units. -/
def cycleWork (s : State) : State :=
  let s := wipeDue s
  let s := (s.banks.map (·.1)).foldl (fun s b => bankCycle b s) s
  (s.arr.folds.map (·.1)).foldl (fun s pf => unitCycle pf s) s

/-- One ACLK cycle: time, the cells and the pin samplers, and what acts in it; its sources are recorded in ascending order (R402). -/
def idleCycle (s : State) : State :=
  if s.hub.supply = .off then s else inOneCycle cycleWork (advanceTime (s.frame.time + 1) s)

/-! ### BAR2 -/

/-- Let ACLK cycles pass. -/
def idleCycles : Nat → State → State
  | 0, s => s
  | n + 1, s => idleCycles n (idleCycle s)

/-- An access of the host to banks waits while their scrub stands above it: until the last cycle of the quiet step (R218, R230; log entry
116). -/
def quietWait (l : List Nat) (s : State) : State :=
  if l.any fun b => b < 272 && !(s.bankShut b) && quietScrub s b then idleCycles (s.period - 1 - s.frame.cycle) s else s

/-- The banks that a byte range touches. -/
def banksOf (a len : Nat) : List Nat := (List.range 2).map fun i => (a + i * (len - 1)) / 0x80000

/-- BAR2_READ (R390). -/
def execBar2Read (addr : BitVec 28) (len : Fin 4097) (s : State) : Out :=
  .next (bar2Read addr.toNat len (quietWait (banksOf addr.toNat len) s))

/-- BAR2_WRITE (R390). -/
def execBar2Write (addr : BitVec 28) (bytes : List Byte) (s : State) : Out :=
  .next (bar2Write addr.toNat bytes (quietWait (banksOf addr.toNat bytes.length) s))

end Sys2Proof.Machine
end

