-- ==== Sys2Proof/Machine/Dispatch.lean ====
section
/-! DEFINITION. What each command does: one arm for each constructor of `Instr`, one call of its meaning. -/

namespace Sys2Proof.Machine

def exec (i : Instr) (s : State) : Host.Outcome State Fault Refusal :=
  match i with
  | .tick => Sys2Proof.Machine.execTick s
  | .hold => Sys2Proof.Machine.execHold s
  | .tickMissed => Sys2Proof.Machine.execTickMissed s
  | .tickNetEdge pin => Sys2Proof.Machine.execTickNetEdge s pin
  | .ptpCompare => Sys2Proof.Machine.execPtpCompare s
  | .hosttick w => Sys2Proof.Machine.execHosttick w s
  | .tickSymbol => Sys2Proof.Machine.execTickSymbol s
  | .epochSymbol epoch crc => Sys2Proof.Machine.execEpochSymbol epoch crc s
  | .stageStart k => Sys2Proof.Machine.execStageStart k s
  | .deadlineStop k => Sys2Proof.Machine.execDeadlineStop k s
  | .guardBand done => Sys2Proof.Machine.execGuardBand done s
  | .checkpointFlush cut => Sys2Proof.Machine.execCheckpointFlush cut s
  | .checkpointValidity => Sys2Proof.Machine.execCheckpointValidity s
  | .readinessLatch => Sys2Proof.Machine.execReadinessLatch s
  | .egressLatch ch => Sys2Proof.Machine.execEgressLatch ch s
  | .emission g => Sys2Proof.Machine.execEmission g s
  | .pulseTimerExpiry p => Sys2Proof.Machine.execPulseTimerExpiry p s
  | .actuate l k => Sys2Proof.Machine.execActuate l k s
  | .drainWindowClose => Sys2Proof.Machine.execDrainWindowClose s
  | .heartbeat pf => Sys2Proof.Machine.execHeartbeat pf s
  | .heartbeatMissed pf => Sys2Proof.Machine.execHeartbeatMissed pf s
  | .penWake p => Sys2Proof.Machine.execPenWake p s
  | .bankWake b => Sys2Proof.Machine.execBankWake b s
  | .bitopAnd p cond off => Sys2Proof.Machine.execBitopAnd p cond off s
  | .bitopOr p cond off => Sys2Proof.Machine.execBitopOr p cond off s
  | .bitopXor p cond off => Sys2Proof.Machine.execBitopXor p cond off s
  | .bitopAdd p cond off => Sys2Proof.Machine.execBitopAdd p cond off s
  | .bitopSub p cond off => Sys2Proof.Machine.execBitopSub p cond off s
  | .bitopAndn p cond off => Sys2Proof.Machine.execBitopAndn p cond off s
  | .bitopMux p cond off => Sys2Proof.Machine.execBitopMux p cond off s
  | .cmpb p cond off => Sys2Proof.Machine.execCmpb p cond off s
  | .ld p cond off => Sys2Proof.Machine.execLd p cond off s
  | .st p cond off => Sys2Proof.Machine.execSt p cond off s
  | .ldn p cond off => Sys2Proof.Machine.execLdn p cond off s
  | .stc p cond off => Sys2Proof.Machine.execStc p cond off s
  | .flagMov p cond tgt src => Sys2Proof.Machine.execFlagMov p cond tgt src s
  | .flagAnd p cond tgt src => Sys2Proof.Machine.execFlagAnd p cond tgt src s
  | .flagOr p cond tgt src => Sys2Proof.Machine.execFlagOr p cond tgt src s
  | .flagXor p cond tgt src => Sys2Proof.Machine.execFlagXor p cond tgt src s
  | .flagAndn p cond tgt src => Sys2Proof.Machine.execFlagAndn p cond tgt src s
  | .flagMovn p cond tgt src => Sys2Proof.Machine.execFlagMovn p cond tgt src s
  | .flagSwap p cond tgt src => Sys2Proof.Machine.execFlagSwap p cond tgt src s
  | .neigh p cond dir edge => Sys2Proof.Machine.execNeigh p cond dir edge s
  | .seqAdd p cond d r => Sys2Proof.Machine.execSeqAdd p cond d r s
  | .seqSub p cond d r => Sys2Proof.Machine.execSeqSub p cond d r s
  | .seqAnd p cond d r => Sys2Proof.Machine.execSeqAnd p cond d r s
  | .seqOr p cond d r => Sys2Proof.Machine.execSeqOr p cond d r s
  | .seqXor p cond d r => Sys2Proof.Machine.execSeqXor p cond d r s
  | .seqMov p cond d r => Sys2Proof.Machine.execSeqMov p cond d r s
  | .cmpeq p cond d r => Sys2Proof.Machine.execCmpeq p cond d r s
  | .cmplt p cond d r => Sys2Proof.Machine.execCmplt p cond d r s
  | .repu p cond arg => Sys2Proof.Machine.execRepu p cond arg s
  | .repd p cond arg => Sys2Proof.Machine.execRepd p cond arg s
  | .repui p cond arg => Sys2Proof.Machine.execRepui p cond arg s
  | .call p cond k target => Sys2Proof.Machine.execCall p cond k target s
  | .ret p cond => Sys2Proof.Machine.execRet p cond s
  | .br p cond target => Sys2Proof.Machine.execBr p cond target s
  | .muster p cond => Sys2Proof.Machine.execMuster p cond s
  | .tally p cond => Sys2Proof.Machine.execTally p cond s
  | .resolution p treeFault => Sys2Proof.Machine.execResolution p treeFault s
  | .cancelEnd p => Sys2Proof.Machine.execCancelEnd p s
  | .nop p cond => Sys2Proof.Machine.execNop p cond s
  | .yield p cond => Sys2Proof.Machine.execYield p cond s
  | .waitm p cond => Sys2Proof.Machine.execWaitm p cond s
  | .specPredict0 p cond => Sys2Proof.Machine.execSpecPredict0 p cond s
  | .specPredict1 p cond => Sys2Proof.Machine.execSpecPredict1 p cond s
  | .halt p cond => Sys2Proof.Machine.execHalt p cond s
  | .ioRead p cond r addr => Sys2Proof.Machine.execIoRead p cond r addr s
  | .ioWrite p cond r addr => Sys2Proof.Machine.execIoWrite p cond r addr s
  | .ldi p cond r imm => Sys2Proof.Machine.execLdi p cond r imm s
  | .ldin p cond r imm => Sys2Proof.Machine.execLdin p cond r imm s
  | .ldih p cond r value => Sys2Proof.Machine.execLdih p cond r value s
  | .addi p cond r imm => Sys2Proof.Machine.execAddi p cond r imm s
  | .dld p cond r indexed addr => Sys2Proof.Machine.execDld p cond r indexed addr s
  | .dst p cond r indexed addr => Sys2Proof.Machine.execDst p cond r indexed addr s
  | .reps p cond r down => Sys2Proof.Machine.execReps p cond r down s
  | .gin p cond r addr => Sys2Proof.Machine.execGin p cond r addr s
  | .gout p cond r addr => Sys2Proof.Machine.execGout p cond r addr s
  | .wego p cond r engine mr => Sys2Proof.Machine.execWego p cond r engine mr s
  | .planeOut p cond r bank off => Sys2Proof.Machine.execPlaneOut p cond r bank off s
  | .planeIn p cond r bank off => Sys2Proof.Machine.execPlaneIn p cond r bank off s
  | .planeMoveComplete pf => Sys2Proof.Machine.execPlaneMoveComplete pf s
  | .histo p cond r widthM1 remote off => Sys2Proof.Machine.execHisto p cond r widthM1 remote off s
  | .histoPass pf => Sys2Proof.Machine.execHistoPass pf s
  | .ckpt p cond plane => Sys2Proof.Machine.execCkpt p cond plane s
  | .checkpointCopy pf => Sys2Proof.Machine.execCheckpointCopy pf s
  | .stkcfgEmpty p cond => Sys2Proof.Machine.execStkcfgEmpty p cond s
  | .stkcfgDrop p cond => Sys2Proof.Machine.execStkcfgDrop p cond s
  | .undefinedEncoding p w0 w1 w2 => Sys2Proof.Machine.execUndefinedEncoding p w0 w1 w2 s
  | .lockstepMismatch pf => Sys2Proof.Machine.execLockstepMismatch pf s
  | .dispatch e => Sys2Proof.Machine.execDispatch e s
  | .engCopy e => Sys2Proof.Machine.execEngCopy e s
  | .engAdd e => Sys2Proof.Machine.execEngAdd e s
  | .engSub e => Sys2Proof.Machine.execEngSub e s
  | .engMul e => Sys2Proof.Machine.execEngMul e s
  | .engFma e => Sys2Proof.Machine.execEngFma e s
  | .engDiv e => Sys2Proof.Machine.execEngDiv e s
  | .engSqrt e => Sys2Proof.Machine.execEngSqrt e s
  | .engMin e => Sys2Proof.Machine.execEngMin e s
  | .engMax e => Sys2Proof.Machine.execEngMax e s
  | .engAbs e => Sys2Proof.Machine.execEngAbs e s
  | .engNeg e => Sys2Proof.Machine.execEngNeg e s
  | .engConvert e => Sys2Proof.Machine.execEngConvert e s
  | .compareEq e => Sys2Proof.Machine.execCompareEq e s
  | .compareLt e => Sys2Proof.Machine.execCompareLt e s
  | .compareLe e => Sys2Proof.Machine.execCompareLe e s
  | .compareUn e => Sys2Proof.Machine.execCompareUn e s
  | .engScale e => Sys2Proof.Machine.execEngScale e s
  | .reduceSum e => Sys2Proof.Machine.execReduceSum e s
  | .reduceMin e => Sys2Proof.Machine.execReduceMin e s
  | .reduceMax e => Sys2Proof.Machine.execReduceMax e s
  | .engDot e => Sys2Proof.Machine.execEngDot e s
  | .mrpost pf => Sys2Proof.Machine.execMrpost pf s
  | .read p waits same => Sys2Proof.Machine.execRead p waits same s
  | .write1 p waits same => Sys2Proof.Machine.execWrite1 p waits same s
  | .writeb p waits same => Sys2Proof.Machine.execWriteb p waits same s
  | .addP p waits same => Sys2Proof.Machine.execAddP p waits same s
  | .addR p waits same => Sys2Proof.Machine.execAddR p waits same s
  | .swapP p waits same => Sys2Proof.Machine.execSwapP p waits same s
  | .swapR p waits same => Sys2Proof.Machine.execSwapR p waits same s
  | .regrd p fold => Sys2Proof.Machine.execRegrd p fold s
  | .regwr p fold => Sys2Proof.Machine.execRegwr p fold s
  | .ack p => Sys2Proof.Machine.execAck p s
  | .rdata p => Sys2Proof.Machine.execRdata p s
  | .rdatab p => Sys2Proof.Machine.execRdatab p s
  | .oldval p => Sys2Proof.Machine.execOldval p s
  | .regdata p => Sys2Proof.Machine.execRegdata p s
  | .error p pos => Sys2Proof.Machine.execError p pos s
  | .inval p => Sys2Proof.Machine.execInval p s
  | .cancel p => Sys2Proof.Machine.execCancel p s
  | .epochNotice p low => Sys2Proof.Machine.execEpochNotice p low s
  | .routePacket n src => Sys2Proof.Machine.execRoutePacket n src s
  | .urgIncrement n net port vc => Sys2Proof.Machine.execUrgIncrement n net port vc s
  | .eccWriteback b => Sys2Proof.Machine.execEccWriteback b s
  | .patrolScrub b => Sys2Proof.Machine.execPatrolScrub b s
  | .hurdleSeal d => Sys2Proof.Machine.execHurdleSeal d s
  | .bridgeLost bridge trained => Sys2Proof.Machine.execBridgeLost bridge trained s
  | .configBegin m => Sys2Proof.Machine.execConfigBegin m s
  | .configChunk m => Sys2Proof.Machine.execConfigChunk m s
  | .configEnd m => Sys2Proof.Machine.execConfigEnd m s
  | .configStore m => Sys2Proof.Machine.execConfigStore m s
  | .configActivate m => Sys2Proof.Machine.execConfigActivate m s
  | .sessionTimeout => Sys2Proof.Machine.execSessionTimeout s
  | .activationT0 => Sys2Proof.Machine.execActivationT0 s
  | .loadingDone good => Sys2Proof.Machine.execLoadingDone good s
  | .commitArm m => Sys2Proof.Machine.execCommitArm m s
  | .commitDiscard m => Sys2Proof.Machine.execCommitDiscard m s
  | .wgArm => Sys2Proof.Machine.execWgArm s
  | .wgDiscard => Sys2Proof.Machine.execWgDiscard s
  | .registerWrite addr bytes => Sys2Proof.Machine.execRegisterWrite addr bytes s
  | .epochLoRead len => Sys2Proof.Machine.execEpochLoRead s len
  | .timerxLoRead l len => Sys2Proof.Machine.execTimerxLoRead l s len
  | .ptptimeLoRead l len => Sys2Proof.Machine.execPtptimeLoRead l s len
  | .ptpstepLoWrite l w => Sys2Proof.Machine.execPtpstepLoWrite l w s
  | .probectlWrite n w => Sys2Proof.Machine.execProbectlWrite n w s
  | .autoload => Sys2Proof.Machine.execAutoload s
  | .encoderCount u a b => Sys2Proof.Machine.execEncoderCount u a b s
  | .imageBlock l msg => Sys2Proof.Machine.execImageBlock l msg s
  | .time l msg => Sys2Proof.Machine.execTime l msg s
  | .status l msg => Sys2Proof.Machine.execStatus l msg s
  | .cornerTurn l => Sys2Proof.Machine.execCornerTurn l s
  | .receivedFrame l bytes desc => Sys2Proof.Machine.execReceivedFrame l bytes desc s
  | .link l up => Sys2Proof.Machine.execLink l up s
  | .transmitDescriptor l desc bytes => Sys2Proof.Machine.execTransmitDescriptor l desc bytes s
  | .nicRingEnable l tx w => Sys2Proof.Machine.execNicRingEnable l tx w s
  | .identify m => Sys2Proof.Machine.execIdentify m s
  | .updateOpen m => Sys2Proof.Machine.execUpdateOpen m s
  | .updateChunk m => Sys2Proof.Machine.execUpdateChunk m s
  | .updateStatus m => Sys2Proof.Machine.execUpdateStatus m s
  | .updateSchedule m => Sys2Proof.Machine.execUpdateSchedule m s
  | .updateAbort m => Sys2Proof.Machine.execUpdateAbort m s
  | .settingsRead m => Sys2Proof.Machine.execSettingsRead m s
  | .settingsWrite m => Sys2Proof.Machine.execSettingsWrite m s
  | .cairnRead m => Sys2Proof.Machine.execCairnRead m s
  | .presenceStatus m => Sys2Proof.Machine.execPresenceStatus m s
  | .lifecycleSet m => Sys2Proof.Machine.execLifecycleSet m s
  | .foldMap m => Sys2Proof.Machine.execFoldMap m s
  | .powerState m => Sys2Proof.Machine.execPowerState m s
  | .probeSetup m => Sys2Proof.Machine.execProbeSetup m s
  | .probeRead m => Sys2Proof.Machine.execProbeRead m s
  | .debugRead m => Sys2Proof.Machine.execDebugRead m s
  | .regRead m => Sys2Proof.Machine.execRegRead m s
  | .regWrite m => Sys2Proof.Machine.execRegWrite m s
  | .bar2Read addr len => Sys2Proof.Machine.execBar2Read addr len s
  | .bar2Write addr bytes => Sys2Proof.Machine.execBar2Write addr bytes s
  | .ringEnable w => Sys2Proof.Machine.execRingEnable w s
  | .holdoffExpiry v => Sys2Proof.Machine.execHoldoffExpiry v s
  | .msixUnmask v w => Sys2Proof.Machine.execMsixUnmask v w s
  | .cairnAckWrite w => Sys2Proof.Machine.execCairnAckWrite w s
  | .cairnWinselWrite w => Sys2Proof.Machine.execCairnWinselWrite w s
  | .dmaEnable c w => Sys2Proof.Machine.execDmaEnable c w s
  | .dmaResume c w => Sys2Proof.Machine.execDmaResume c w s
  | .dmaH2p c desc host => Sys2Proof.Machine.execDmaH2p c desc host s
  | .dmaP2h c desc taken => Sys2Proof.Machine.execDmaP2h c desc taken s
  | .dmaP2p c desc => Sys2Proof.Machine.execDmaP2p c desc s
  | .dmaAddP c desc => Sys2Proof.Machine.execDmaAddP c desc s
  | .dmaAddR c desc taken => Sys2Proof.Machine.execDmaAddR c desc taken s
  | .dmaSwapP c desc => Sys2Proof.Machine.execDmaSwapP c desc s
  | .dmaSwapR c desc taken => Sys2Proof.Machine.execDmaSwapR c desc taken s
  | .dmaPlaneRd c desc taken => Sys2Proof.Machine.execDmaPlaneRd c desc taken s
  | .dmaCompletion c => Sys2Proof.Machine.execDmaCompletion c s
  | .functionLevelReset => Sys2Proof.Machine.execFunctionLevelReset s
  | .usb4LinkDown => Sys2Proof.Machine.execUsb4LinkDown s
  | .d3hotEntry => Sys2Proof.Machine.execD3hotEntry s
  | .d0Return => Sys2Proof.Machine.execD0Return s
  | .feedQualify b va vb => Sys2Proof.Machine.execFeedQualify b va vb s
  | .feedLoss b ov va vb ns => Sys2Proof.Machine.execFeedLoss b ov va vb ns s
  | .vinAStable ns => Sys2Proof.Machine.execVinAStable ns s
  | .holdupCharged => Sys2Proof.Machine.execHoldupCharged s
  | .thermalSample temps => Sys2Proof.Machine.execThermalSample temps s
  | .shedClear => Sys2Proof.Machine.execShedClear s
  | .resetN => Sys2Proof.Machine.execResetN s
  | .watchdog => Sys2Proof.Machine.execWatchdog s
  | .loaderRetry c1 c2 => Sys2Proof.Machine.execLoaderRetry c1 c2 s
  | .loader c1 c2 bad => Sys2Proof.Machine.execLoader c1 c2 bad s
  | .firmware refclk flashOk bad => Sys2Proof.Machine.execFirmware refclk flashOk bad s
  | .selftest r => Sys2Proof.Machine.execSelftest r s
  | .refclkLost => Sys2Proof.Machine.execRefclkLost s
  | .foldIsolation pf => Sys2Proof.Machine.execFoldIsolation pf s
  | .spareSubstituted us fate => Sys2Proof.Machine.execSpareSubstituted us fate s
  | .presenceOn key => Sys2Proof.Machine.execPresenceOn key s
  | .presenceOff => Sys2Proof.Machine.execPresenceOff s
  | .tamper mesh bad => Sys2Proof.Machine.execTamper mesh bad s
  | .updateSwap => Sys2Proof.Machine.execUpdateSwap s
  | .healthConfirmed => Sys2Proof.Machine.execHealthConfirmed s
  | .fallback => Sys2Proof.Machine.execFallback s
  | .syncInLock lock => Sys2Proof.Machine.execSyncInLock lock s
  | .presenceHold ev => Sys2Proof.Machine.execPresenceHold ev s
  | .usb4LinkUp rate => Sys2Proof.Machine.execUsb4LinkUp rate s
  | .linkPowerStateEntry st => Sys2Proof.Machine.execLinkPowerStateEntry st s
  | .unknownCmd m => Sys2Proof.Machine.execUnknownCmd m s
  | .malformedMessage l msg coded => Sys2Proof.Machine.execMalformedMessage l msg coded s
  | .pinInput p level => Sys2Proof.Machine.execPinInput p level s
  | .engineWake e => Sys2Proof.Machine.execEngineWake e s

end Sys2Proof.Machine
end

