-- ==== Sys2Proof/WellFormed.lean ====
section
/-! DEFINITION. Well-formed commands: operands of the shape the spec gives them. A command that is not well formed still has a
meaning; no sender makes it. -/

namespace Sys2Proof

/-- A mailbox request: the service port's header is 16 bytes, the host's stands in registers; at most 65,536 payload bytes (R391, R399,
R401). -/
def MboxReq.wf (m : MboxReq) : Bool := (if m.svc then m.hdr.length = 16 else m.hdr.isEmpty) && m.payload.length ≤ 65536

/-- A packet of a row's network and type, with at most as many payload words as a packet carries (R248 to R251). -/
def wfPkt (net : Net) (type : BitVec 5) (p : Pkt) : Bool := p.net == net && p.type == type && p.body.payload.length ≤ 64

/-- A DMA or transmit descriptor is 32 bytes (R407, R409). -/
def wfDesc (l : List Byte) : Bool := l.length = 32

/-- The bytes of a host write: some, and at most `n` (R6, R390). -/
def wfBytes (n : Nat) (l : List Byte) : Bool := 1 ≤ l.length && l.length ≤ n

/-- Names of a list come once each. -/
def wfNames {n : Nat} (l : List (Fin n)) : Bool := l.eraseDups.length = l.length

/-- A self-test names each failed fold, engine, lane and bridge once, and columns a byte can hold (R416, R451). -/
def SelfTest.wf (r : SelfTest) : Bool :=
  wfNames (r.folds.map (·.1)) && wfNames (r.engines.map (·.1)) && wfNames r.lanes && wfNames r.bridges &&
    r.soft.all fun x => x.2.2 < 256

/-- Whether a command is well formed. -/
def Instr.wf : Instr → Bool
  | .guardBand l => wfNames (l.map (·.1))
  | .read p _ _ => wfPkt .req 0x1 p
  | .write1 p _ _ => wfPkt .req 0x2 p
  | .writeb p _ _ => wfPkt .data 0x11 p
  | .addP p _ _ => wfPkt .req 0x3 p
  | .addR p _ _ => wfPkt .req 0x4 p
  | .swapP p _ _ => wfPkt .req 0x5 p
  | .swapR p _ _ => wfPkt .req 0x6 p
  | .regrd p _ => wfPkt .req 0x8 p
  | .regwr p _ => wfPkt .req 0x9 p
  | .ack p => wfPkt .rsp 0x1 p
  | .rdata p => wfPkt .rsp 0x2 p
  | .rdatab p => wfPkt .data 0x12 p
  | .oldval p => wfPkt .rsp 0x3 p
  | .regdata p => wfPkt .rsp 0x5 p
  | .error p _ => wfPkt .rsp 0x6 p
  | .inval p => wfPkt .snp 0x1 p
  | .cancel p => wfPkt .snp 0x2 p
  | .epochNotice p _ => wfPkt .snp 0x3 p
  | .configBegin m => m.wf
  | .configChunk m => m.wf
  | .configEnd m => m.wf
  | .configStore m => m.wf
  | .configActivate m => m.wf
  | .commitArm m => m.wf
  | .commitDiscard m => m.wf
  | .registerWrite _ bytes => wfBytes 8 bytes
  | .transmitDescriptor _ desc _ => wfDesc desc
  | .identify m => m.wf
  | .updateOpen m => m.wf
  | .updateChunk m => m.wf
  | .updateStatus m => m.wf
  | .updateSchedule m => m.wf
  | .updateAbort m => m.wf
  | .settingsRead m => m.wf
  | .settingsWrite m => m.wf
  | .cairnRead m => m.wf
  | .presenceStatus m => m.wf
  | .lifecycleSet m => m.wf
  | .foldMap m => m.wf
  | .powerState m => m.wf
  | .probeSetup m => m.wf
  | .probeRead m => m.wf
  | .debugRead m => m.wf
  | .regRead m => m.wf
  | .regWrite m => m.wf
  | .bar2Write _ bytes => wfBytes 4096 bytes
  | .dmaH2p _ desc _ => wfDesc desc
  | .dmaP2h _ desc _ => wfDesc desc
  | .dmaP2p _ desc => wfDesc desc
  | .dmaAddP _ desc => wfDesc desc
  | .dmaAddR _ desc _ => wfDesc desc
  | .dmaSwapP _ desc => wfDesc desc
  | .dmaSwapR _ desc _ => wfDesc desc
  | .dmaPlaneRd _ desc _ => wfDesc desc
  | .thermalSample l => wfNames (l.map (·.1))
  | .selftest r => r.wf
  | .unknownCmd m => m.svc || m.wf
  | .tick | .hold | .tickMissed | .tickNetEdge .. | .ptpCompare | .hosttick .. | .tickSymbol | .epochSymbol ..
  | .stageStart .. | .deadlineStop .. | .checkpointFlush .. | .checkpointValidity | .readinessLatch | .egressLatch ..
  | .emission .. | .pulseTimerExpiry .. | .actuate .. | .drainWindowClose | .heartbeat .. | .heartbeatMissed ..
  | .penWake .. | .bankWake .. | .bitopAnd .. | .bitopOr .. | .bitopXor .. | .bitopAdd .. | .bitopSub .. | .bitopAndn ..
  | .bitopMux .. | .cmpb .. | .ld .. | .st .. | .ldn .. | .stc .. | .flagMov .. | .flagAnd .. | .flagOr .. | .flagXor ..
  | .flagAndn .. | .flagMovn .. | .flagSwap .. | .neigh .. | .seqAdd .. | .seqSub .. | .seqAnd .. | .seqOr ..
  | .seqXor .. | .seqMov .. | .cmpeq .. | .cmplt .. | .repu .. | .repd .. | .repui .. | .call .. | .ret .. | .br ..
  | .muster .. | .tally .. | .resolution .. | .cancelEnd .. | .nop .. | .yield .. | .waitm .. | .specPredict0 ..
  | .specPredict1 .. | .halt .. | .ioRead .. | .ioWrite .. | .ldi .. | .ldin .. | .ldih .. | .addi .. | .dld ..
  | .dst .. | .reps .. | .gin .. | .gout .. | .wego .. | .planeOut .. | .planeIn .. | .planeMoveComplete .. | .histo ..
  | .histoPass .. | .ckpt .. | .checkpointCopy .. | .stkcfgEmpty .. | .stkcfgDrop .. | .undefinedEncoding ..
  | .lockstepMismatch .. | .dispatch .. | .engCopy .. | .engAdd .. | .engSub .. | .engMul .. | .engFma .. | .engDiv ..
  | .engSqrt .. | .engMin .. | .engMax .. | .engAbs .. | .engNeg .. | .engConvert .. | .compareEq .. | .compareLt ..
  | .compareLe .. | .compareUn .. | .engScale .. | .reduceSum .. | .reduceMin .. | .reduceMax .. | .engDot ..
  | .mrpost .. | .routePacket .. | .urgIncrement .. | .eccWriteback .. | .patrolScrub .. | .hurdleSeal ..
  | .bridgeLost .. | .sessionTimeout | .activationT0 | .loadingDone .. | .wgArm | .wgDiscard | .epochLoRead ..
  | .timerxLoRead .. | .ptptimeLoRead .. | .ptpstepLoWrite .. | .probectlWrite .. | .autoload | .encoderCount ..
  | .imageBlock .. | .time .. | .status .. | .cornerTurn .. | .receivedFrame .. | .link .. | .nicRingEnable ..
  | .bar2Read .. | .ringEnable .. | .holdoffExpiry .. | .msixUnmask .. | .cairnAckWrite .. | .cairnWinselWrite ..
  | .dmaEnable .. | .dmaResume .. | .dmaCompletion .. | .functionLevelReset | .usb4LinkDown | .d3hotEntry | .d0Return
  | .feedQualify .. | .feedLoss .. | .vinAStable .. | .holdupCharged | .shedClear | .resetN | .watchdog
  | .loaderRetry .. | .loader .. | .firmware .. | .refclkLost | .foldIsolation .. | .spareSubstituted ..
  | .presenceOn .. | .presenceOff | .tamper .. | .updateSwap | .healthConfirmed | .fallback | .syncInLock ..
  | .presenceHold .. | .usb4LinkUp .. | .linkPowerStateEntry .. | .malformedMessage .. | .pinInput .. | .engineWake .. => true

end Sys2Proof
end

