-- ==== Sys2Proof/Safety.lean ====
section
/-! DEFINITION. What a safe run is, and the standing conditions that claims use. -/

namespace Sys2Proof.Machine

/-- An outcome is a next state: the block neither stops nor is refused. -/
def goesOn (o : Host.Outcome State Fault Refusal) : Prop := ∃ t, o = .next t

/-- A run of some steps in which the block goes on. -/
inductive Runs : Nat → State → State → Prop
  | nil (s : State) : Runs 0 s s
  | cons {n : Nat} {s t u : State} (h : step s = .next t) (r : Runs n t u) : Runs (n + 1) s u

/-- The pasture and the engines' local memories are in canonical form: addresses rising, no byte 0 listed. -/
def State.memWf (s : State) : Bool := Store.wf s.mem 0 && Store.wf s.eng.mem 0

/-- The register store is in canonical form: addresses rising. -/
def State.regsRising (s : State) : Bool := Store.rising s.regs none

/-- The Cairn holds at most 32,768 records (R448). -/
def State.cairnFits (s : State) : Bool := s.cairn.recs.length ≤ 32768

/-- Every waiting command is well formed. -/
def State.queueWf (s : State) : Bool := s.pending.all Instr.wf

end Sys2Proof.Machine
end

