-- ==== Sys2Proof/Certificates/Slice0/Obligations.lean ====
section
/-! DEFINITION. The statements about this model, and the vocabulary they are written in. -/

namespace Sys2Proof.Claims

open Sys2Proof.Machine

/-- An outcome is a next state of which something holds. -/
def Goes (o : Host.Outcome State Fault Refusal) (P : State → Prop) : Prop := ∃ t, o = .next t ∧ P t

/-- A source is pending in the event registers (R402). -/
def Pend (t : State) (src : Nat) : Prop := bit (t.reg .evtPend (src / 32)) (src % 32) = true

/-! ### What array commands have in common -/

/-- The pen at logical fold `p` issues an instruction of kind `k` with the condition `cond`, none for a PE class: it can issue, a
repeat in progress is one that may repeat it (R112) and that a stop leaves the time for it (R31), and neither run-ahead (R163) nor a
unit (R145, R148, R151) holds it. -/
def Issues (s : State) (p : Nat) (k : Uk) (cond : Option (BitVec 2)) (c : Ictx) : Prop :=
  penIssue s p = some c ∧
  (∀ r, c.seq.rep = some r → k.repeatable = true ∧ r.fits s.frame.cycle (issueCost s c k) = true) ∧ raHolds s c k (executesNow cond c.seq) = false ∧
  unitHolds s c k (executesNow cond c.seq) = false

/-- The PE registers of every fold are as they were. -/
def SamePes (s t : State) : Prop := ∀ pf, (t.fold pf).pe = (s.fold pf).pe

/-- B-space is as it was. -/
def SamePlanes (s t : State) : Prop := ∀ pf a, t.plane pf a = s.plane pf a

/-- I-space and D-space are as they were. -/
def SamePrograms (s t : State) : Prop := ∀ pf a, t.iword pf a = s.iword pf a ∧ t.dword pf a = s.dword pf a

/-- Every fold's sequencer but one is as it was. -/
def SameSeqsBut (q : Nat) (s t : State) : Prop := ∀ pf, pf ≠ q → (t.fold pf).seq = (s.fold pf).seq

/-- Only the array has changed: every register, the pasture, the events, the Cairn, every other block is as it was. -/
def OnlyArray (s t : State) : Prop := t = { s with arr := t.arr }

/-- Where no repeat runs, the program counter has passed the instruction's words (R133). -/
def PassedWords (c : Ictx) (n : Nat) (t : State) : Prop :=
  c.seq.rep = none → (t.seq c.pf).pc = c.seq.pc + BitVec.ofNat 14 n

/-- Where a repeat runs outside a stop, it has one repetition less, and the last one ends it (R111, R113). -/
def RepeatGoesOn (c : Ictx) (t : State) : Prop :=
  ∀ r, c.seq.rep = some r → r.stop = none →
    (t.seq c.pf).rep = (if r.left ≤ 1 then none else some { r with left := r.left - 1, i := r.i + 1 })

/-- A scalar register after an instruction that gave it the value `x`: a load still due lands last (R121, R122). -/
def landed (c : Ictx) (r : Fin 8) (x : Half) : Half :=
  match c.seq.load with
  | none => x
  | some (q, v) => if q = r then v else x

/-- The scalar registers are as they were, but for a load that was due (R121). -/
def ScalarsKept (c : Ictx) (t : State) : Prop := ∀ r : Fin 8, (t.seq c.pf).core.s[r] = landed c r c.seq.core.s[r]

/-- One scalar register has been given a value, the others are as they were, a load that was due has landed. -/
def ScalarGiven (c : Ictx) (r : Fin 8) (x : Half) (t : State) : Prop :=
  ∀ q : Fin 8, (t.seq c.pf).core.s[q] = landed c q (if q = r then x else c.seq.core.s[q])

/-- WB and the return stack are as they were. -/
def StackKept (c : Ictx) (t : State) : Prop :=
  (t.seq c.pf).core.wb = c.seq.core.wb ∧ (t.seq c.pf).core.stack = c.seq.core.stack ∧
    (t.seq c.pf).core.ptr = c.seq.core.ptr ∧ (t.seq c.pf).core.depth = c.seq.core.depth

/-- Whether a COND enables PE `k` (R56, R93). -/
def peOn (cond : BitVec 2) (r : PeRegs) (k : Nat) : Bool :=
  if cond = 0 then true else if cond = 1 then r.a.getLsbD k else if cond = 2 then !(r.a.getLsbD k) else r.t.getLsbD k

/-! ### BITOP, MOVE, FLAG and NEIGH -/

/-- An instruction gives each enabled PE of each live member a W and a C from W, b, C and T, b being its bit of the plane in
the window, and changes nothing else of any PE, no plane and no scalar register; where every row read has good parity,
nothing but the array changes. -/
def BitopGives (i : Instr) (cond : BitVec 2) (off : BitVec 6) (s : State) (c : Ictx) (fw fc : Bool → Bool → Bool → Bool → Bool) :
    Prop :=
  Goes (exec i s) fun t =>
    (∀ pf ∈ s.liveFolds c.pen, ∀ k < 4096,
      let r := (s.fold pf).pe
      let r' := (t.fold pf).pe
      let b := (s.plane pf (windowAddr c.seq off)).getLsbD k
      r'.w.getLsbD k = (if peOn cond r k then fw (r.w.getLsbD k) b (r.c.getLsbD k) (r.t.getLsbD k) else r.w.getLsbD k) ∧
      r'.c.getLsbD k = (if peOn cond r k then fc (r.w.getLsbD k) b (r.c.getLsbD k) (r.t.getLsbD k) else r.c.getLsbD k)) ∧
    (∀ pf ∈ s.liveFolds c.pen, (t.fold pf).pe.a = (s.fold pf).pe.a ∧ (t.fold pf).pe.t = (s.fold pf).pe.t ∧
      (t.fold pf).pe.x = (s.fold pf).pe.x) ∧
    (∀ pf, pf ∉ s.liveFolds c.pen → (t.fold pf).pe = (s.fold pf).pe) ∧
    SamePlanes s t ∧ SamePrograms s t ∧ SameSeqsBut c.pf s t ∧ PassedWords c 1 t ∧ RepeatGoesOn c t ∧ ScalarsKept c t ∧
    StackKept c t ∧ t.mem = s.mem ∧
    ((∀ pf ∈ s.liveFolds c.pen, s.badRows pf (windowAddr c.seq off) = 0) → OnlyArray s t)

/-- The majority of three bits. -/
def maj3 (p q r : Bool) : Bool := (p && q) || (p && r) || (q && r)

/-- An instruction writes a PE register's bit of each enabled PE of each live member into the plane in the window, and no
other bit of any plane; each row with an enabled PE gets good parity. -/
def StoreGives (i : Instr) (cond : BitVec 2) (off : BitVec 6) (s : State) (c : Ictx) (src : PeRegs → Plane) : Prop :=
  Goes (exec i s) fun t =>
    (∀ pf ∈ s.liveFolds c.pen, ∀ k < 4096, (t.plane pf (windowAddr c.seq off)).getLsbD k =
      (if peOn cond (s.fold pf).pe k then (src (s.fold pf).pe).getLsbD k else (s.plane pf (windowAddr c.seq off)).getLsbD k)) ∧
    (∀ pf ∈ s.liveFolds c.pen, ∀ y < 64, (t.badRows pf (windowAddr c.seq off)).getLsbD y =
      ((s.badRows pf (windowAddr c.seq off)).getLsbD y &&
        (List.range 64).all fun x => !(peOn cond (s.fold pf).pe (64 * y + x)))) ∧
    (∀ pf a, pf ∉ s.liveFolds c.pen ∨ a % 2048 ≠ windowAddr c.seq off → t.plane pf a = s.plane pf a) ∧
    SamePes s t ∧ SamePrograms s t ∧ SameSeqsBut c.pf s t ∧ PassedWords c 1 t ∧ RepeatGoesOn c t ∧ ScalarsKept c t ∧
    StackKept c t ∧ OnlyArray s t

/-- The value a FLAG source supplies to PE `k` (R136). -/
def srcBit (src : FlagSrc) (latch : Bool) (r : PeRegs) (k : Nat) : Bool :=
  match src with
  | .w => r.w.getLsbD k
  | .c => r.c.getLsbD k
  | .a => r.a.getLsbD k
  | .t => r.t.getLsbD k
  | .x => r.x.getLsbD k
  | .m => latch
  | .zero => false
  | .one => true

/-- An instruction changes the PE registers of live members as a relation says, no other fold's, and nothing beyond PEs
and the pen's sequencer. -/
def PeGives (i : Instr) (s : State) (c : Ictx) (rel : PeRegs → PeRegs → Prop) : Prop :=
  Goes (exec i s) fun t =>
    (∀ pf ∈ s.liveFolds c.pen, rel (s.fold pf).pe (t.fold pf).pe) ∧
    (∀ pf, pf ∉ s.liveFolds c.pen → (t.fold pf).pe = (s.fold pf).pe) ∧
    SamePlanes s t ∧ SamePrograms s t ∧ SameSeqsBut c.pf s t ∧ PassedWords c 1 t ∧ RepeatGoesOn c t ∧ ScalarsKept c t ∧
    StackKept c t ∧ OnlyArray s t

/-- One PE register of the enabled PEs gets a function of its own and the source's old bit; the others stay. -/
def flagRel (cond : BitVec 2) (tgt : FlagTgt) (src : FlagSrc) (latch : Bool) (f : Bool → Bool → Bool) (r r' : PeRegs) : Prop :=
  (∀ k < 4096, (flagTarget tgt r').getLsbD k =
    (if peOn cond r k then f ((flagTarget tgt r).getLsbD k) (srcBit src latch r k) else (flagTarget tgt r).getLsbD k)) ∧
  (∀ u, u ≠ tgt → flagTarget u r' = flagTarget u r) ∧ r'.tap = r.tap

/-- Two PE registers of the enabled PEs exchange their bits; the others stay. -/
def swapRel (cond : BitVec 2) (u v : FlagTgt) (r r' : PeRegs) : Prop :=
  (∀ k < 4096, (flagTarget u r').getLsbD k = (if peOn cond r k then flagTarget v r else flagTarget u r).getLsbD k) ∧
  (∀ k < 4096, (flagTarget v r').getLsbD k = (if peOn cond r k then flagTarget u r else flagTarget v r).getLsbD k) ∧
  (∀ z, z ≠ u → z ≠ v → flagTarget z r' = flagTarget z r) ∧ r'.tap = r.tap

/-- The bit that NEIGH delivers to the PE at (x, y) of a fold from inside the fold, from S6 or from the ingest tap; none for
a PE whose neighbour lies in another fold or beyond the pen, and for a long link (R60). -/
def innerBit (r : PeRegs) (s6 : Half) (dir : NeighDir) (x y : Nat) : Option Bool :=
  match dir with
  | .n => if 0 < y then some (r.x.getLsbD (64 * (y - 1) + x)) else none
  | .s => if y < 63 then some (r.x.getLsbD (64 * (y + 1) + x)) else none
  | .e => if x < 63 then some (r.x.getLsbD (64 * y + (x + 1))) else none
  | .w => if 0 < x then some (r.x.getLsbD (64 * y + (x - 1))) else none
  | .bcast => some (s6.getLsbD 0)
  | .ingest => some (r.tap.getLsbD (64 * y + x))
  | _ => none

/-- The bit the EDGE field fills a PE with at the edge of a pen of one fold (R69); none under WRAP. -/
def edgeBit : EdgeFill → Option Bool
  | .zero => some false
  | .one => some true
  | .wrap => none

/-- X of the PE at pen coordinates (X, Y): 0 in a member that is LOST (R62, R64, R68). -/
def penX (s : State) (g : PenCfg) (at_ : Nat × Nat) : Bool :=
  match s.pfOf (g.first + at_.2 / 64 * g.width + at_.1 / 64) with
  | none => false
  | some pf => !(s.fold pf).lost && (s.fold pf).pe.x.getLsbD (64 * (at_.2 % 64) + at_.1 % 64)

/-- What EDGE delivers at a pen edge: 0, 1, or by the pair's mode the bit at one of two places of the pen (R69). -/
def rimBit (s : State) (g : PenCfg) (edge : EdgeFill) (mode : EdgeMode) (wrapped skewed : Nat × Nat) : Bool :=
  match edge with
  | .zero => false
  | .one => true
  | .wrap => match mode with
    | .fill => false
    | .wrap => penX s g wrapped
    | .skew => penX s g skewed

/-- What a long link delivers to a PE: the X of the same PE of its source, 0 of a source that is LOST or isolated; without a valid link
the EDGE fill (R60, R70, R71). -/
def longBit (s : State) (src : Option Nat) (edge : EdgeFill) (k : Nat) : Bool :=
  match src with
  | none => edge == .one
  | some lf => match s.pfOf lf with
    | none => false
    | some pf => !(s.fold pf).lost && (s.fold pf).role != .isolated && (s.fold pf).pe.x.getLsbD k

/-- The bit that NEIGH delivers to the PE (x, y) of the member `m` of a pen, on the physical fold `pf`: from the adjacent pen coordinates
inside the pen and across its seams, by the table of R69 at its edges (R60, R64, R69 to R71). -/
def sourceBit (s : State) (c : Ictx) (dir : NeighDir) (edge : EdgeFill) (m pf x y : Nat) : Bool :=
  let g := c.pen.cfg
  let px := 64 * g.width
  let py := 64 * (g.count / g.width)
  let X := 64 * (m % g.width) + x
  let Y := 64 * (m / g.width) + y
  match dir with
  | .n => if 0 < Y then penX s g (X, Y - 1) else rimBit s g edge g.ns (X, py - 1) ((X + px - 1) % px, py - 1)
  | .s => if Y + 1 < py then penX s g (X, Y + 1) else rimBit s g edge g.ns (X, 0) ((X + 1) % px, 0)
  | .e => if X + 1 < px then penX s g (X + 1, Y) else rimBit s g edge g.ew (0, Y) (0, (Y + 1) % py)
  | .w => if 0 < X then penX s g (X - 1, Y) else rimBit s g edge g.ew (px - 1, Y) (px - 1, (Y + py - 1) % py)
  | .longN => longBit s (s.fold pf).lnsrc edge (64 * y + x)
  | .longE => longBit s (s.fold pf).lesrc edge (64 * y + x)
  | .bcast => c.seq.core.s[6].getLsbD 0
  | .ingest => (s.fold pf).pe.tap.getLsbD (64 * y + x)

/-! ### Scalars, stack and reductions -/

/-- What a sequencer instruction leaves: planes, PEs, programs, the sequencers of other folds, everything outside the
array. -/
def SequencerOnly (c : Ictx) (n : Nat) (s t : State) : Prop :=
  SamePes s t ∧ SamePlanes s t ∧ SamePrograms s t ∧ SameSeqsBut c.pf s t ∧ PassedWords c n t ∧ OnlyArray s t

/-- A SEQ writes one scalar register where its condition holds. -/
def SeqGives (i : Instr) (cond : BitVec 2) (d : Fin 8) (s : State) (c : Ictx) (x : Half) : Prop :=
  Goes (exec i s) fun t =>
    ScalarGiven c d (if condHolds cond c.seq then x else c.seq.core.s[d]) t ∧ StackKept c t ∧ RepeatGoesOn c t ∧
      SequencerOnly c 1 s t

/-- An immediate instruction writes one scalar register where its condition holds. -/
def ImmGives (i : Instr) (cond : BitVec 2) (r : Fin 8) (s : State) (c : Ictx) (x : Half) : Prop :=
  Goes (exec i s) fun t =>
    ScalarGiven c r (if condHolds cond c.seq then x else c.seq.core.s[r]) t ∧ StackKept c t ∧ SequencerOnly c 2 s t

/-- A load is due in one scalar register where the instruction executes, and has not landed yet. -/
def LoadDue (i : Instr) (cond : BitVec 2) (r : Fin 8) (s : State) (c : Ictx) (x : Half) : Prop :=
  Goes (exec i s) fun t =>
    (t.seq c.pf).load = (if condHolds cond c.seq then some (r, x) else none) ∧ ScalarsKept c t ∧ StackKept c t ∧
      SequencerOnly c 2 s t

/-- The contents of a fold-local IO address (R125, R126). -/
def ioTable (s : State) (c : Ictx) (a : Nat) : Nat :=
  let q := c.seq
  let cycle := min s.frame.cycle (2 ^ 31 - 1)
  if a < 16 then
    (if a % 4 = 0 then (q.mr[a / 4 % 4]!).toNat else (q.lat.mrLatch[a / 4 % 4]!).toNat) / 2 ^ (16 * (a % 4)) % 65536
  else match a with
    | 0x10 => 16 * q.mrPend.toNat + q.mrReady.toNat
    | 0x11 => q.tally.toNat % 65536
    | 0x12 => q.lat.tallyHi.toNat
    | 0x13 => 4 * q.ra.isSome.toNat + 2 * q.red.isSome.toNat + q.latch.toNat
    | 0x14 => q.core.wb.toNat
    | 0x15 => q.core.depth % 65536
    | 0x16 => cycle % 65536
    | 0x17 => q.lat.cycleHi.toNat
    | 0x18 => c.pen.stage % 65536
    | 0x19 => c.pen.cfg.first % 65536
    | 0x1A => c.pen.cfg.count % 65536
    | _ => c.pen.cfg.width % 65536

/-- The contributing PEs of a fold: those whose W and A are 1 (R150). -/
def countPes (s : State) (pf : Nat) : Nat :=
  ((List.range 4096).filter fun k => (s.fold pf).pe.w.getLsbD k && (s.fold pf).pe.a.getLsbD k).length

/-- A reduction becomes pending with a value, where the instruction executes. -/
def ReductionPends (i : Instr) (cond : BitVec 2) (s : State) (c : Ictx) (tally : Bool) (v : Nat) : Prop :=
  Goes (exec i s) fun t =>
    (t.seq c.pf).red = (if condHolds cond c.seq then some ⟨tally, BitVec.ofNat 21 v⟩ else c.seq.red) ∧
      (t.seq c.pf).latch = c.seq.latch ∧ (t.seq c.pf).tally = c.seq.tally ∧ ScalarsKept c t ∧ StackKept c t ∧
      SequencerOnly c 1 s t

/-- A repeat prefix: the next instruction is to be repeated, where the prefix executes (R111, R115); after a skipped prefix it
executes once (R95). -/
def PrefixSets (i : Instr) (cond : BitVec 2) (n : Nat) (s : State) (c : Ictx) (count : Nat) (down intr : Bool) : Prop :=
  Goes (exec i s) fun t =>
    (t.seq c.pf).rep = some (if condHolds cond c.seq then ⟨c.seq.pc, count, 0, down, intr, none⟩ else ⟨c.seq.pc, 1, 0, false, true, none⟩) ∧
      ScalarsKept c t ∧ StackKept c t ∧ SequencerOnly c n s t

/-- A CTRL or EXT instruction of the pen at `p` with a condition, the words it has, and the register of a GIN (R112, R129). -/
inductive Unrepeatable (p : Fin 256) (cond : BitVec 2) : Instr → Nat → Option (Fin 8) → Prop
  | repu (n : BitVec 6) : Unrepeatable p cond (.repu p cond n) 1 none
  | repd (n : BitVec 6) : Unrepeatable p cond (.repd p cond n) 1 none
  | repui (n : BitVec 6) : Unrepeatable p cond (.repui p cond n) 1 none
  | reps (r : Fin 8) (d : Bool) : Unrepeatable p cond (.reps p cond r d) 2 none
  | call (k : BitVec 6) (a : BitVec 14) : Unrepeatable p cond (.call p cond k a) 2 none
  | ret : Unrepeatable p cond (.ret p cond) 1 none
  | br (a : BitVec 14) : Unrepeatable p cond (.br p cond a) 2 none
  | muster : Unrepeatable p cond (.muster p cond) 1 none
  | tally : Unrepeatable p cond (.tally p cond) 1 none
  | nop : Unrepeatable p cond (.nop p cond) 1 none
  | yield : Unrepeatable p cond (.yield p cond) 1 none
  | waitm : Unrepeatable p cond (.waitm p cond) 1 none
  | spec0 : Unrepeatable p cond (.specPredict0 p cond) 1 none
  | spec1 : Unrepeatable p cond (.specPredict1 p cond) 1 none
  | halt : Unrepeatable p cond (.halt p cond) 1 none
  | ldi (r : Fin 8) (v : BitVec 14) : Unrepeatable p cond (.ldi p cond r v) 2 none
  | ldin (r : Fin 8) (v : BitVec 14) : Unrepeatable p cond (.ldin p cond r v) 2 none
  | ldih (r : Fin 8) (v : BitVec 2) : Unrepeatable p cond (.ldih p cond r v) 2 none
  | addi (r : Fin 8) (v : BitVec 14) : Unrepeatable p cond (.addi p cond r v) 2 none
  | dld (r : Fin 8) (x : Bool) (a : BitVec 12) : Unrepeatable p cond (.dld p cond r x a) 2 none
  | dst (r : Fin 8) (x : Bool) (a : BitVec 12) : Unrepeatable p cond (.dst p cond r x a) 2 none
  | gin (r : Fin 8) (a : BitVec 8) : Unrepeatable p cond (.gin p cond r a) 2 (some r)
  | gout (r : Fin 8) (a : BitVec 8) : Unrepeatable p cond (.gout p cond r a) 2 none
  | wego (r : Fin 8) (e : Fin 32) (n : Fin 4) : Unrepeatable p cond (.wego p cond r e n) 2 none
  | planeOut (r : Fin 8) (b : BitVec 8) (o : BitVec 6) : Unrepeatable p cond (.planeOut p cond r b o) 2 none
  | planeIn (r : Fin 8) (b : BitVec 8) (o : BitVec 6) : Unrepeatable p cond (.planeIn p cond r b o) 2 none
  | histo (r : Fin 8) (w : BitVec 4) (x : Bool) (o : BitVec 6) : Unrepeatable p cond (.histo p cond r w x o) 2 none
  | ckpt (a : BitVec 11) : Unrepeatable p cond (.ckpt p cond a) 2 none
  | empty : Unrepeatable p cond (.stkcfgEmpty p cond) 2 none
  | drop : Unrepeatable p cond (.stkcfgDrop p cond) 2 none

/-- A pen after a sequencer instruction: found where it was, and something holds of it. -/
def PenThen (t : State) (p : Nat) (P : Pen → Prop) : Prop := ∃ n, t.penAt p = some n ∧ P n

/-- STACK: the event of the leader's fold is pending unless it fired before in the stage, and the pen is FAULTED (R106). -/
def StackTrap (c : Ictx) (p : Nat) (t : State) : Prop :=
  (c.seq.lat.stkFired = false → Pend t (64 + 4 * c.pf + 2)) ∧ PenThen t p fun n => n.faulted = true

end Sys2Proof.Claims

section Statements

open Sys2Proof Sys2Proof.Machine Sys2Proof.Claims

/-- R134: what each BITOP writes to W and C of the enabled PEs, bit by bit. R135: LD and LDN write W of the enabled PEs, ST and STC the
plane, bit by bit. -/
def Obligations.BitopsAndMoves : Prop :=
  (∀ (p : Fin 256) (cond : BitVec 2) (off : BitVec 6) (s : State) (c : Ictx), Issues s p (.read off) none c →
    BitopGives (.bitopAnd p cond off) cond off s c (fun w b _ _ => w && b) (fun _ _ c _ => c) ∧
    BitopGives (.bitopOr p cond off) cond off s c (fun w b _ _ => w || b) (fun _ _ c _ => c) ∧
    BitopGives (.bitopXor p cond off) cond off s c (fun w b _ _ => w ^^ b) (fun _ _ c _ => c) ∧
    BitopGives (.bitopAdd p cond off) cond off s c (fun w b c _ => w ^^ b ^^ c) (fun w b c _ => maj3 w b c) ∧
    BitopGives (.bitopSub p cond off) cond off s c (fun w b c _ => w ^^ !b ^^ c) (fun w b c _ => maj3 w (!b) c) ∧
    BitopGives (.bitopAndn p cond off) cond off s c (fun w b _ _ => w && !b) (fun _ _ c _ => c) ∧
    BitopGives (.bitopMux p cond off) cond off s c (fun w b _ t => if t then b else w) (fun _ _ c _ => c) ∧
    BitopGives (.cmpb p cond off) cond off s c (fun w _ _ _ => w) (fun w b c _ => maj3 w (!b) c)) ∧
  (∀ (p : Fin 256) (cond : BitVec 2) (off : BitVec 6) (s : State) (c : Ictx),
    (Issues s p (.read off) none c →
      BitopGives (.ld p cond off) cond off s c (fun _ b _ _ => b) (fun _ _ c _ => c) ∧
      BitopGives (.ldn p cond off) cond off s c (fun _ b _ _ => !b) (fun _ _ c _ => c)) ∧
    (Issues s p (.store off) none c →
      StoreGives (.st p cond off) cond off s c (·.w) ∧ StoreGives (.stc p cond off) cond off s c (·.c)))

/-- R99, R136: what each FLAG writes to its target in the enabled PEs, bit by bit; with target M, MOV of a constant sets the
Muster latch. -/
def Obligations.FlagTable : Prop :=
  ∀ (p : Fin 256) (cond : BitVec 2) (tgt : FlagTgt) (src : FlagSrc) (s : State) (c : Ictx),
    (tgt ≠ .m → Issues s p (.flag (flagWritesX tgt src false) false) none c →
      PeGives (.flagMov p cond tgt src) s c (flagRel cond tgt src c.seq.latchSeen fun _ y => y) ∧
      PeGives (.flagAnd p cond tgt src) s c (flagRel cond tgt src c.seq.latchSeen fun x y => x && y) ∧
      PeGives (.flagOr p cond tgt src) s c (flagRel cond tgt src c.seq.latchSeen fun x y => x || y) ∧
      PeGives (.flagXor p cond tgt src) s c (flagRel cond tgt src c.seq.latchSeen fun x y => x ^^ y) ∧
      PeGives (.flagAndn p cond tgt src) s c (flagRel cond tgt src c.seq.latchSeen fun x y => x && !y) ∧
      PeGives (.flagMovn p cond tgt src) s c (flagRel cond tgt src c.seq.latchSeen fun _ y => !y)) ∧
    (∀ o, tgt ≠ .m → swapSource src = some o → Issues s p (.flag (flagWritesX tgt src true) false) none c →
      PeGives (.flagSwap p cond tgt src) s c (swapRel cond tgt o)) ∧
    (src = .zero ∨ src = .one → Issues s p (.flag false true) none c →
      Goes (exec (.flagMov p 0 .m src) s) fun t =>
        (t.seq c.pf).latch = (src == .one) ∧ ScalarsKept c t ∧ StackKept c t ∧ RepeatGoesOn c t ∧ SequencerOnly c 1 s t)

/-- R60, R64, R68 to R71, R137: NEIGH writes X of the enabled PEs with the bit of the neighbour at the adjacent pen coordinates, across
the seams of the pen as well, of a long link's source, of S6 or of the ingest tap; at an edge of the pen with the EDGE fill, or as the
pair's mode wraps or skews. -/
def Obligations.NeighDelivers : Prop :=
  ∀ (p : Fin 256) (cond : BitVec 2) (dir : NeighDir) (edge : EdgeFill) (s : State) (c : Ictx), Issues s p (.neigh dir) none c →
    Goes (exec (.neigh p cond dir edge) s) fun t =>
      (∀ lf ∈ c.pen.members, ∀ pf ∈ s.liveFolds c.pen, s.pfOf lf = some pf → ∀ x < 64, ∀ y < 64,
        let r := (s.fold pf).pe
        let r' := (t.fold pf).pe
        (peOn cond r (64 * y + x) = false → r'.x.getLsbD (64 * y + x) = r.x.getLsbD (64 * y + x)) ∧
        (peOn cond r (64 * y + x) = true →
          r'.x.getLsbD (64 * y + x) = (neighBits s c.pen c.seq dir edge lf pf).getLsbD (64 * y + x) ∧
          (∀ b, innerBit r c.seq.core.s[6] dir x y = some b → r'.x.getLsbD (64 * y + x) = b) ∧
          (0 < c.pen.cfg.width → c.pen.cfg.count % c.pen.cfg.width = 0 →
            r'.x.getLsbD (64 * y + x) = sourceBit s c dir edge (lf - c.pen.cfg.first) pf x y) ∧
          (∀ b, c.pen.cfg.count = 1 → c.pen.cfg.width = 1 → innerBit r c.seq.core.s[6] dir x y = none → dir ≠ .longN →
            dir ≠ .longE → edgeBit edge = some b → r'.x.getLsbD (64 * y + x) = b)) ∧
        r'.w = r.w ∧ r'.c = r.c ∧ r'.a = r.a ∧ r'.t = r.t) ∧
      (∀ pf, pf ∉ s.liveFolds c.pen → (t.fold pf).pe = (s.fold pf).pe) ∧
      SamePlanes s t ∧ SamePrograms s t ∧ SameSeqsBut c.pf s t ∧ PassedWords c 1 t ∧ ScalarsKept c t ∧ StackKept c t ∧
      OnlyArray s t

/-- R94, R138: what each SEQ writes to Sd where its condition holds. R116, R121, R123: the immediates write S, DLD makes a load due that
the next instruction does not see, DST writes the D-space of every live member. -/
def Obligations.ScalarsAndDspace : Prop :=
  (∀ (p : Fin 256) (cond : BitVec 2) (d r : Fin 8) (s : State) (c : Ictx), Issues s p .seq (some cond) c →
    let x := c.seq.core.s[d]
    let y := c.seq.core.s[r]
    SeqGives (.seqAdd p cond d r) cond d s c (BitVec.ofNat 16 (x.toNat + y.toNat)) ∧
    SeqGives (.seqSub p cond d r) cond d s c (BitVec.ofInt 16 ((x.toNat : Int) - y.toNat)) ∧
    SeqGives (.seqAnd p cond d r) cond d s c (x &&& y) ∧
    SeqGives (.seqOr p cond d r) cond d s c (x ||| y) ∧
    SeqGives (.seqXor p cond d r) cond d s c (x ^^^ y) ∧
    SeqGives (.seqMov p cond d r) cond d s c y ∧
    SeqGives (.cmpeq p cond d r) cond d s c (if x = y then 1 else 0) ∧
    SeqGives (.cmplt p cond d r) cond d s c (if x.toInt < y.toInt then 1 else 0)) ∧
  (∀ (p : Fin 256) (cond : BitVec 2) (r : Fin 8) (s : State) (c : Ictx),
    (Issues s p .ext (some cond) c →
      (∀ imm : BitVec 14,
        ImmGives (.ldi p cond r imm) cond r s c (BitVec.ofNat 16 imm.toNat) ∧
        ImmGives (.ldin p cond r imm) cond r s c (BitVec.ofInt 16 imm.toInt) ∧
        ImmGives (.addi p cond r imm) cond r s c (BitVec.ofInt 16 (c.seq.core.s[r].toNat + imm.toInt))) ∧
      (∀ v : BitVec 2, ImmGives (.ldih p cond r v) cond r s c
        (BitVec.ofNat 16 (c.seq.core.s[r].toNat % 2 ^ 14 + 2 ^ 14 * v.toNat))) ∧
      (∀ (indexed : Bool) (a : BitVec 12), LoadDue (.dld p cond r indexed a) cond r s c
        (s.dword c.pf (if indexed then (a.toNat + (c.seq.core.s[5]).toNat) % 4096 else a.toNat)))) ∧
    (Issues s p .held (some cond) c → ∀ (indexed : Bool) (a : BitVec 12),
      Goes (exec (.dst p cond r indexed a) s) fun t =>
        let at5 := if indexed then (a.toNat + (c.seq.core.s[5]).toNat) % 4096 else a.toNat
        (∀ pf b, t.dword pf b =
          (if condHolds cond c.seq ∧ pf ∈ s.liveFolds c.pen ∧ b % 4096 = at5 then c.seq.core.s[r] else s.dword pf b)) ∧
        (∀ pf b, t.iword pf b = s.iword pf b) ∧ SamePes s t ∧ SamePlanes s t ∧ SameSeqsBut c.pf s t ∧ PassedWords c 2 t ∧
        ScalarsKept c t ∧ StackKept c t ∧ OnlyArray s t))

/-- R124 to R126, R128: an IO read gives the addressed register as it stood and fills the read latches, WB is the one
writable address, GIN makes a load of the global register due, FRAMEINFO with RESTORED and the epoch bit among them, GOUT writes MARK. -/
def Obligations.IoRegisters : Prop :=
  ∀ (p : Fin 256) (cond : BitVec 2) (r : Fin 8) (s : State) (c : Ictx),
    (Issues s p .io (some cond) c →
      (∀ a : BitVec 5, a.toNat < 0x1C →
        Goes (exec (.ioRead p cond r a) s) fun t =>
          ScalarGiven c r (if condHolds cond c.seq then BitVec.ofNat 16 (ioTable s c a.toNat) else c.seq.core.s[r]) t ∧
          (condHolds cond c.seq = true →
            (∀ n : Fin 4, a.toNat = 4 * n.val → (t.seq c.pf).lat.mrLatch[n.val]! = c.seq.mr[n.val]!) ∧
            (a.toNat = 0x11 → (t.seq c.pf).lat.tallyHi.toNat = c.seq.tally.toNat / 65536) ∧
            (a.toNat = 0x16 → (t.seq c.pf).lat.cycleHi.toNat = min s.frame.cycle (2 ^ 31 - 1) / 65536)) ∧
          (t.seq c.pf).mr = c.seq.mr ∧ StackKept c t ∧ RepeatGoesOn c t ∧ SequencerOnly c 1 s t) ∧
      Goes (exec (.ioWrite p cond r 0x14) s) fun t =>
        (t.seq c.pf).core.wb.toNat = (if condHolds cond c.seq then (c.seq.core.s[r]).toNat % 2048 else c.seq.core.wb.toNat) ∧
        (t.seq c.pf).core.depth = c.seq.core.depth ∧ ScalarsKept c t ∧ RepeatGoesOn c t ∧ SequencerOnly c 1 s t) ∧
    (Issues s p .held (some cond) c →
      (LoadDue (.gin p cond r 0) cond r s c (s.frame.epoch.extractLsb' 0 16) ∧
        Goes (exec (.gin p cond r 0) s) fun t => condHolds cond c.seq = true →
          (t.seq c.pf).lat.epoch1 = s.frame.epoch.extractLsb' 16 16 ∧ (t.seq c.pf).lat.epoch2 = s.frame.epoch.extractLsb' 32 16) ∧
      Goes (exec (.gout p cond r 0x40) s) fun t =>
        (condHolds cond c.seq = true → (t.seq c.pf).lat.mark = c.seq.core.s[r]) ∧ ScalarsKept c t ∧ StackKept c t ∧
        SamePes s t ∧ SamePlanes s t ∧ SamePrograms s t ∧ SameSeqsBut c.pf s t ∧ PassedWords c 2 t ∧ t.mem = s.mem) ∧
    (Issues s p .ext (some cond) c →
      LoadDue (.gin p cond r 3) cond r s c (BitVec.ofNat 16 (2 * c.pen.restored.toNat + s.frame.epoch.toNat % 2)) ∧
      LoadDue (.gin p cond r 1) cond r s c c.seq.lat.epoch1 ∧ LoadDue (.gin p cond r 2) cond r s c c.seq.lat.epoch2 ∧
      LoadDue (.gin p cond r 0x40) cond r s c c.seq.lat.mark ∧
      (∀ i : Fin 16, LoadDue (.gin p cond r (0x10 + BitVec.ofNat 8 i.val)) cond r s c
        (BitVec.ofNat 16 (s.rf .latemap (i.val / 2) (16 * (i.val % 2) + 15) (16 * (i.val % 2))))) ∧
      (∀ l : Fin 32, LoadDue (.gin p cond r (0x20 + BitVec.ofNat 8 l.val)) cond r s c (s.lane l.val).ingCount))

/-- R103 to R107, R111, R112, R115, R120, R129 to R132: CALL pushes the return and moves the window, RET and the drop take the top
entry, a stack that traps does neither; BR jumps; the repeat prefixes set the repeat; NOP does nothing; a CTRL or EXT instruction that
follows a prefix is a forbidden repeat target, ILLEGAL with KIND 1 at the prefix's address, and nothing is repeated. Its readings of
log entry 114 are the model's choice. -/
def Obligations.ControlFlow : Prop :=
  ∀ (p : Fin 256) (cond : BitVec 2) (s : State) (c : Ictx),
    (Issues s p .call (some cond) c → condHolds cond c.seq = true → ∀ (k : BitVec 6) (target : BitVec 14),
      Goes (exec (.call p cond k target) s) fun t =>
        (t.seq c.pf).pc = target ∧ (t.seq c.pf).core.wb = c.seq.core.wb + BitVec.ofNat 11 (8 * k.toNat) ∧
        (if c.seq.core.depth = 16 ∧ stkTrap s c.pf then
          (t.seq c.pf).core.depth = 16 ∧ (t.seq c.pf).core.stack = c.seq.core.stack ∧ StackTrap c p t
        else
          (t.seq c.pf).core.depth = min 16 (c.seq.core.depth + 1) ∧ (t.seq c.pf).core.ptr = c.seq.core.ptr + 1 ∧
          (t.seq c.pf).core.stack[c.seq.core.ptr] = ⟨c.seq.pc + 2, c.seq.core.wb⟩ ∧ OnlyArray s t) ∧
        ScalarsKept c t ∧ SamePes s t ∧ SamePlanes s t ∧ SamePrograms s t) ∧
    (Issues s p .ret (some cond) c → condHolds cond c.seq = true →
      Goes (exec (.ret p cond) s) fun t =>
        (if c.seq.core.depth = 0 ∧ stkTrap s c.pf then
          (t.seq c.pf).pc = c.seq.pc + 1 ∧ (t.seq c.pf).core.wb = c.seq.core.wb ∧ StackTrap c p t
        else
          (t.seq c.pf).pc = c.seq.core.stack[c.seq.core.ptr - 1].pc ∧
          (t.seq c.pf).core.wb = c.seq.core.stack[c.seq.core.ptr - 1].wb ∧ (t.seq c.pf).core.ptr = c.seq.core.ptr - 1 ∧
          (t.seq c.pf).core.depth = c.seq.core.depth - 1 ∧ OnlyArray s t) ∧
        ScalarsKept c t ∧ SamePes s t ∧ SamePlanes s t ∧ SamePrograms s t) ∧
    (Issues s p .drop (some cond) c → condHolds cond c.seq = true →
      Goes (exec (.stkcfgDrop p cond) s) fun t =>
        (t.seq c.pf).pc = c.seq.pc + 2 ∧ (t.seq c.pf).core.wb = c.seq.core.wb ∧
        (if c.seq.core.depth = 0 ∧ stkTrap s c.pf then StackTrap c p t
        else (t.seq c.pf).core.ptr = c.seq.core.ptr - 1 ∧ (t.seq c.pf).core.depth = c.seq.core.depth - 1 ∧ OnlyArray s t) ∧
        ScalarsKept c t ∧ SamePes s t ∧ SamePlanes s t ∧ SamePrograms s t) ∧
    (Issues s p .ext (some cond) c → condHolds cond c.seq = true →
      Goes (exec (.stkcfgEmpty p cond) s) fun t =>
        (t.seq c.pf).core.depth = 0 ∧ (t.seq c.pf).core.ptr = 0 ∧ (t.seq c.pf).core.wb = c.seq.core.wb ∧ ScalarsKept c t ∧
        SequencerOnly c 2 s t) ∧
    (Issues s p .br (some cond) c → ∀ target : BitVec 14,
      Goes (exec (.br p cond target) s) fun t =>
        (t.seq c.pf).pc = (if condHolds cond c.seq then target else c.seq.pc + 2) ∧ ScalarsKept c t ∧ StackKept c t ∧
        SamePes s t ∧ SamePlanes s t ∧ SamePrograms s t ∧ SameSeqsBut c.pf s t ∧ OnlyArray s t) ∧
    (Issues s p .nop (some cond) c →
      Goes (exec (.nop p cond) s) fun t => ScalarsKept c t ∧ StackKept c t ∧ SequencerOnly c 1 s t) ∧
    (Issues s p .rep none c →
      (∀ n : BitVec 6,
        PrefixSets (.repu p cond n) cond 1 s c (n.toNat + 1) false false ∧
        PrefixSets (.repd p cond n) cond 1 s c (n.toNat + 1) true false ∧
        PrefixSets (.repui p cond n) cond 1 s c (n.toNat + 1) false true) ∧
      ∀ (r : Fin 8) (down : Bool),
        PrefixSets (.reps p cond r down) cond 2 s c ((c.seq.core.s[r]).toNat % 4096 + 1) down true) ∧
    (penIssue s p = some c → c.seq.ra = none → ∀ r, c.seq.rep = some r → ∀ i n g, Unrepeatable p cond i n g →
      Goes (exec i s) fun t =>
        (c.seq.lat.illFired = false → Pend t (64 + 4 * c.pf)) ∧ (PenThen t p fun n => n.faulted = true) ∧
        (t.seq c.pf).lat.illFired = true ∧
        (if bit (s.reg .illstat c.pf) 31 then t.reg .illstat c.pf = s.reg .illstat c.pf
        else t.rf .illstat c.pf 31 31 = 1 ∧ t.rf .illstat c.pf 30 27 = c.pen.stage % 16 ∧ t.rf .illstat c.pf 26 24 = 1 ∧
          t.rf .illstat c.pf 13 0 = r.start.toNat) ∧
        (t.seq c.pf).rep = none ∧ (t.seq c.pf).pc = c.seq.pc + BitVec.ofNat 14 n ∧ ScalarsKept c t ∧ StackKept c t ∧
        (∀ q v, (t.seq c.pf).load = some (q, v) ↔ v = 0 ∧ g = some q ∧ condHolds cond c.seq = true) ∧
        SamePes s t ∧ SamePlanes s t ∧ SamePrograms s t ∧ SameSeqsBut c.pf s t ∧ t.mem = s.mem ∧ t.cairn = s.cairn)

/-- R29, R109, R150, R151, R155, R157, R160, R170: MUSTER and TALLY take the values their PEs hold, WAITM stalls for a pending
reduction, SPEC starts run-ahead with its alternate target and a snapshot of W, C, A, T and the confined range of every PE and of WB, S and
the return stack, or stalls, YIELD and HALT end the pen's work. Its readings of log entry 70
are the model's choice. -/
def Obligations.ReductionsAndStages : Prop :=
  ∀ (p : Fin 256) (cond : BitVec 2) (s : State) (c : Ictx),
    (Issues s p .mstr (some cond) c →
      (∀ v : Bool, (v = true ↔ ∃ pf ∈ s.liveFolds c.pen, 0 < countPes s pf) →
        ReductionPends (.muster p cond) cond s c false v.toNat) ∧
      ReductionPends (.tally p cond) cond s c true (((s.liveFolds c.pen).map (countPes s)).sum)) ∧
    (Issues s p .sys (some cond) c → condHolds cond c.seq = true →
      Goes (exec (.waitm p cond) s) (fun t =>
        (t.seq c.pf).stall = c.seq.red.isSome ∧ (t.seq c.pf).red = c.seq.red ∧ ScalarsKept c t ∧ StackKept c t ∧
        SequencerOnly c 1 s t) ∧
      (∀ v : Bool, Goes (exec (if v then .specPredict1 p cond else .specPredict0 p cond) s) fun t =>
        (if c.seq.red.isNone then (t.seq c.pf).ra = none ∧ (t.seq c.pf).stall = false
        else if s.rf .racfg c.pf 0 0 = 1 then (t.seq c.pf).ra = none ∧ (t.seq c.pf).stall = true
        else (t.seq c.pf).latchSeen = v ∧ (∃ ra, (t.seq c.pf).ra = some ra ∧ ra.count = 0 ∧
          ra.alt = (if s.iword c.pf (c.seq.pc + 1).toNat = 0x3B40 then (if v then c.seq.pc + 3 else s.iword c.pf (c.seq.pc + 2).toNat)
            else c.seq.pc + 1) ∧
          (∀ q : Fin 8, ra.core.s[q] = landed c q c.seq.core.s[q]) ∧ ra.core.wb = c.seq.core.wb ∧
          ra.core.stack = c.seq.core.stack ∧ ra.core.ptr = c.seq.core.ptr ∧ ra.core.depth = c.seq.core.depth ∧
          (∀ pf ∈ s.liveFolds c.pen, ∃ f, (pf, f) ∈ ra.folds ∧ f.w = (s.fold pf).pe.w ∧ f.c = (s.fold pf).pe.c ∧
            f.a = (s.fold pf).pe.a ∧ f.t = (s.fold pf).pe.t ∧
            ∀ i < 32, f.planes.getD i 0 = s.plane pf ((c.seq.core.wb.toNat + 32 + i) % 2048)))) ∧
        (t.seq c.pf).red = c.seq.red ∧ ScalarsKept c t ∧ StackKept c t ∧ SamePes s t ∧ SamePlanes s t ∧ SamePrograms s t ∧
        PassedWords c 1 t ∧ t.mem = s.mem) ∧
      Goes (exec (.yield p cond) s) (fun t =>
        (PenThen t p fun n => n.run = false ∧ c.pen.stage ∈ n.yielded) ∧ ScalarsKept c t ∧ StackKept c t ∧
        SequencerOnly c 1 s t) ∧
      Goes (exec (.halt p cond) s) fun t =>
        (PenThen t p fun n => n.run = false ∧ ∀ k < 16, c.pen.stage ≤ k → k ∈ n.yielded) ∧ ScalarsKept c t ∧ StackKept c t ∧
        SequencerOnly c 1 s t)

end Statements

namespace Sys2Proof.Claims

open Sys2Proof.Machine

/-- The word of a bank as the pasture holds it (R214). -/
def wordAt (s : State) (b w : Nat) : Dword := memWord s.mem (wordAddr b w)

/-- Every byte of the pasture outside some words from one on reads as before. -/
def MemOutside (s t : State) (b w n : Nat) : Prop :=
  ∀ a, a < wordAddr b w ∨ wordAddr b w + 8 * n ≤ a → memByte t.mem a = memByte s.mem a

/-- A value of a field of planes: bit `j` is the bit of the plane `a + j` (R147). -/
def planeField (s : State) (pf a width k : Nat) : Nat :=
  ((List.range width).map fun j => 2 ^ j * ((s.plane pf (a + j)).getLsbD k).toNat).sum

/-- The PEs of a mask with a value in a field of a fold's planes (R147). -/
def countAt (s : State) (pf : Nat) (mask : Plane) (a width v : Nat) : Nat :=
  ((List.range 4096).filter fun k => mask.getLsbD k && planeField s pf a width k == v).length

/-- A tally unit has the whole of a field of so many planes still to read (R147, R148). -/
def Reads (h : Histo) (a width : Nat) : Prop :=
  h.first = a ∧ h.planes.length = width ∧ h.left = 64 * width ∧ h.bins = []

/-- The moves a fold has left, but for when the next row of the first came to its bank's port (R142, R219). -/
def MovesLeft (t : State) (pf : Nat) (l : List Move) : Prop :=
  (t.fold pf).moves.map (fun x => { x with since := 0 }) = l.map fun x => { x with since := 0 }

/-- A fold's bank port serves an access of the fold's own units at once: the bank is open, no request waits there and no own move goes
before it (R217, R219, R271). -/
def PortFree (s : State) (pf : Nat) : Prop := s.bankShut pf = false ∧ (s.bank pf).waiting = [] ∧ ownMove s pf = false

/-- A packet was sent (R248). -/
def Sent (t : State) (q : Pkt) : Prop := .packet q ∈ t.out

end Sys2Proof.Claims

section Statements

open Sys2Proof Sys2Proof.Machine Sys2Proof.Claims

/-- R152, R153, R160, R165, R166: RESOLUTION and CANCEL_END complete: a resolution writes the latch, a Tally's value and ends the stall;
run-ahead commits when the prediction was right, otherwise the snapshot comes back, W, C, A, T and the confined range of every PE and the
sequencer's WB, S and return stack, and the pen turns to the alternate target; CANCEL_END goes there. Its
readings of log entry 9 are the model's choice. -/
def Obligations.Resolution : Prop :=
  (∀ (p : Fin 256) (treeFault : Option (Fin 272)) (s : State) (pen : Pen) (pf : Nat) (r : Reduction),
    s.penAt p = some pen → pen.leader = some pf → (s.seq pf).red = some r →
    ∃ t, Sys2Proof.Machine.exec (.resolution p treeFault) s = .next t ∧
      (t.seq pf).latch = (r.value != 0) ∧ (t.seq pf).tally = (if r.tally then r.value else (s.seq pf).tally) ∧
      (t.seq pf).red = none ∧ (t.seq pf).stall = false ∧ (t.seq pf).ra = none ∧ t.mem = s.mem ∧
      match (s.seq pf).ra with
      | none => (t.seq pf).cancel = (s.seq pf).cancel ∧ (t.seq pf).core = (s.seq pf).core ∧ (t.seq pf).pc = (s.seq pf).pc
      | some x =>
        if x.p = (r.value != 0) then
          (t.seq pf).cancel = (s.seq pf).cancel ∧ (t.seq pf).core = (s.seq pf).core ∧ (t.seq pf).pc = (s.seq pf).pc ∧
          (∀ y ∈ x.folds, ∀ m ∈ (t.fold y.1).moves, m.spec = false) ∧ SamePlanes s t
        else
          (t.seq pf).cancel = some x.alt ∧ (t.seq pf).core = x.core ∧ (t.seq pf).rep = none ∧ (t.seq pf).load = none ∧
          (∀ y ∈ x.folds, ∀ m ∈ (t.fold y.1).moves, m.spec = false) ∧
          (∀ q a, q ∉ x.folds.map (·.1) ∨ 32 ≤ (a % 2048 + 2048 - (x.core.wb.toNat + 32) % 2048) % 2048 → t.plane q a = s.plane q a) ∧
          ((x.folds.map (·.1)).Nodup → ∀ y ∈ x.folds,
            (∀ i < 32, t.plane y.1 ((x.core.wb.toNat + 32 + i) % 2048) = y.2.planes.getD i 0) ∧
            (t.fold y.1).pe.w = y.2.w ∧ (t.fold y.1).pe.c = y.2.c ∧ (t.fold y.1).pe.a = y.2.a ∧ (t.fold y.1).pe.t = y.2.t ∧
            (t.fold y.1).pe.x = (s.fold y.1).pe.x)) ∧
  ∀ (p : Fin 256) (s : State) (pen : Pen) (pf : Nat) (a : BitVec 14),
    s.penAt p = some pen → pen.leader = some pf → (s.seq pf).cancel = some a →
    ∃ t, Sys2Proof.Machine.exec (.cancelEnd p) s = .next t ∧
      (t.seq pf).cancel = none ∧ (t.seq pf).pc = a ∧ (t.seq pf).core = (s.seq pf).core ∧ SamePes s t ∧ SamePlanes s t ∧
      SamePrograms s t ∧ SameSeqsBut pf s t ∧ OnlyArray s t

/-- R77, R129 to R132: an undefined encoding raises ILLEGAL once in a stage, records the first one in ILLSTAT and marks the pen
FAULTED, and writes nothing but 0 into the register of an undefined read; a lockstep mismatch of an ON fold sets LOCK, raises FAULT
with a Cairn record once in a frame, stops the sequencer and its repeat, and fails the fold. Its readings of log entries 52 and 114 are
the model's choice. -/
def Obligations.SequencerFaults : Prop :=
  (∀ (p : Fin 256) (w0 w1 w2 : BitVec 14) (s : State) (c : Ictx) (u : Undef),
    decodeArray p w0 w1 w2 = .undef u → Issues s p (if u.ctl then .undefCtl else .undef) none c →
    Goes (exec (.undefinedEncoding p w0 w1 w2) s) fun t =>
      (c.seq.lat.illFired = false → Pend t (64 + 4 * c.pf)) ∧ (PenThen t p fun n => n.faulted = true) ∧
      (t.seq c.pf).lat.illFired = true ∧
      (if bit (s.reg .illstat c.pf) 31 then t.reg .illstat c.pf = s.reg .illstat c.pf
      else t.rf .illstat c.pf 31 31 = 1 ∧ t.rf .illstat c.pf 30 27 = c.pen.stage % 16 ∧
        t.rf .illstat c.pf 26 24 = u.kind % 8 ∧ t.rf .illstat c.pf 13 0 = c.seq.pc.toNat) ∧
      PassedWords c u.words t ∧ RepeatGoesOn c t ∧
      (∀ q : Fin 8, (t.seq c.pf).core.s[q] = landed c q
        (if u.words ≠ 2 ∧ ∃ x, u.reads = some (x, q) ∧ condHolds x c.seq = true then 0 else c.seq.core.s[q])) ∧
      (∀ q v, (t.seq c.pf).load = some (q, v) ↔
        u.words = 2 ∧ v = 0 ∧ ∃ x, u.reads = some (x, q) ∧ condHolds x c.seq = true) ∧
      StackKept c t ∧ SamePes s t ∧ SamePlanes s t ∧ SamePrograms s t ∧ t.mem = s.mem ∧ t.cairn = s.cairn) ∧
  ∀ (pf : Fin 272) (s : State), (s.fold pf).power = .on →
    Goes (exec (.lockstepMismatch pf) s) fun t =>
      t.rf .faultstat pf 1 1 = 1 ∧ (t.seq pf).dead = true ∧ (t.seq pf).rep = none ∧ pf.val ∈ t.arr.failed ∧
      ((s.fold pf).faultFired = false → Pend t (64 + 4 * pf + 3) ∧ t.cairn.next = (s.cairn.next + 1) % 2 ^ 32) ∧
      ((s.fold pf).faultFired = true → t.cairn = s.cairn ∧ ∀ b, t.reg .evtPend b = s.reg .evtPend b) ∧
      SamePes s t ∧ SamePlanes s t ∧ SamePrograms s t ∧ SameSeqsBut pf s t ∧ t.mem = s.mem

/-- R45, R117, R127, R140 to R142, R147: WEGO sends the 32 bytes at D-space words 16k to 16k + 15 and moves MRn from READY to
PENDING, PLANE_OUT and PLANE_IN join each live member's queue, HISTO captures the bin counts, CKPT hints a carried plane. Its
readings of log entries 27, 94 and 100 are the model's choice. -/
def Obligations.UnitInstructions : Prop :=
  ∀ (p : Fin 256) (cond : BitVec 2) (r : Fin 8) (s : State) (c : Ictx), condHolds cond c.seq = true →
    (Issues s p .held (some cond) c → ∀ (engine : Fin 32) (mr : Fin 4),
      Goes (exec (.wego p cond r engine mr) s) fun t =>
        (∃ d : Dispatch, t.arr.flight = s.arr.flight ++ [d] ∧ d.engine = engine.val ∧ d.pf = c.pf ∧ d.mr = mr.val ∧
          d.fep = (s.epochsAt c.pf).1 ∧ d.bytes.length = 32 ∧
          (∀ i < 16, leAt d.bytes (2 * i) 2 = (s.dword c.pf (16 * ((c.seq.core.s[r]).toNat / 16 % 256) + i)).toNat) ∧
          (t.seq c.pf).mrOwner[mr] = d.id) ∧
        bit (t.seq c.pf).mrReady mr.val = false ∧ bit (t.seq c.pf).mrPend mr.val = true ∧
        (∀ k < 4, k ≠ mr.val → bit (t.seq c.pf).mrReady k = bit c.seq.mrReady k ∧
          bit (t.seq c.pf).mrPend k = bit c.seq.mrPend k) ∧
        (t.seq c.pf).mr = c.seq.mr ∧ ScalarsKept c t ∧ StackKept c t ∧ SamePes s t ∧ SamePlanes s t ∧ SamePrograms s t ∧
        SameSeqsBut c.pf s t ∧ PassedWords c 2 t ∧ ∃ q : Pkt, t = { s with arr := t.arr, out := s.out ++ [.packet q] } ∧
          q.net = .req ∧ q.type = 7 ∧ q.src.toNat = c.pf % 512 ∧ q.dst.toNat = engineNode engine ∧ q.unit = 3 ∧
          q.body.mri.toNat = mr.val ∧ q.body.eng.toNat = engine.val % 4 ∧ q.fep = (s.epochsAt c.pf).1) ∧
    (∀ (out : Bool) (field : BitVec 8) (off : BitVec 6), Issues s p (if out then .planeOut else .planeIn off) (some cond) c →
      Goes (exec (if out then .planeOut p cond r field off else .planeIn p cond r field off) s) fun t =>
        (∀ pf ∈ s.liveFolds c.pen, ∀ b, s.bankOf (if field = 0 then c.pen.cfg.first + ((s.fold pf).lf - c.pen.cfg.first)
            else (c.pen.cfg.first + field.toNat + ((s.fold pf).lf - c.pen.cfg.first)) % 256) = some b →
          (t.fold pf).moves = (s.fold pf).moves ++
            [⟨out, c.seq.core.wb + off.setWidth 11, b, (c.seq.core.s[r]).setWidth 10, 0, c.seq.ra.isSome, [], none,
              s.frame.time + 1⟩]) ∧
        (∀ pf, pf ∉ s.liveFolds c.pen → (t.fold pf).moves = (s.fold pf).moves) ∧ ScalarsKept c t ∧ StackKept c t ∧
        SequencerOnly c 2 s t) ∧
    (Issues s p .histo (some cond) c → ∀ (widthM1 : BitVec 4) (remote : Bool) (off : BitVec 6),
      Goes (exec (.histo p cond r widthM1 remote off) s) fun t =>
        let a := (c.seq.core.wb.toNat + off.toNat) % 2048
        let n := widthM1.toNat + 1
        (∀ pf ∈ s.liveFolds c.pen, ∀ b,
          s.bankOf (if remote then (c.seq.core.s[4]).toNat % 256 else (s.fold pf).lf) = some b →
          ∃ h : Histo, (t.fold pf).histo = some h ∧ h.bank = b ∧ h.base = c.seq.core.s[r] ∧ h.mask = (s.fold pf).pe.a ∧
            Reads h a n) ∧
        ScalarsKept c t ∧ StackKept c t ∧ SamePes s t ∧ SamePlanes s t ∧ SamePrograms s t ∧ SameSeqsBut c.pf s t ∧
        PassedWords c 2 t ∧ t.mem = s.mem) ∧
    (Issues s p .held (some cond) c → ∀ plane : BitVec 11,
      c.pen.cfg.cbase ≤ plane.toNat → plane.toNat < c.pen.cfg.cbase + c.pen.cfg.carried →
      Goes (exec (.ckpt p cond plane) s) fun t =>
        (PenThen t p fun n => plane.toNat ∈ n.hints ∧ ∀ a ∈ c.pen.hints, a ∈ n.hints) ∧ ScalarsKept c t ∧ StackKept c t ∧
        SequencerOnly c 2 s t)

/-- R45, R141, R142, R144, R146, R148, R249: a move between a fold and its own open bank moves its rows 64 words of the slot at a time;
one to another bank sends its WRITEB with the first four rows under a tag of the fold and reads the rest after it, one from another bank
asks for its plane with one READ, and takes the rows that have come; a histogram of up to six planes adds its counts in one pass, an add
at another bank is an ADD_P; a checkpoint copy writes the plane to the alternate buffer's slot, until the check at G + 832. Its readings
of log entries 27, 28, 94, 116 and 118 are the model's choice. -/
def Obligations.MoversAndTallyUnits : Prop :=
  (∀ (pf : Fin 272) (m : Move) (rest : List Move) (s : State),
    (s.fold pf).moves = m :: rest → m.bank = pf.val → s.bankShut pf = false → (s.bank pf).waiting = [] → m.row ≤ 63 →
    (∀ y < 64, s.eccOf pf (slotWord m.slot y) = .good) →
    Goes (exec (.planeMoveComplete pf) s) fun t =>
      MovesLeft t pf rest ∧ SamePes s t ∧ SamePrograms s t ∧
      if m.out then
        (∀ y < 64, m.row ≤ y → wordAt t pf (slotWord m.slot y) = rowOf (s.plane pf m.plane.toNat) y) ∧ SamePlanes s t ∧
        MemOutside s t pf (slotWord m.slot m.row) (64 - m.row)
      else
        (∀ y < 64, rowOf (t.plane pf m.plane.toNat) y =
          (if m.row ≤ y then wordAt s pf (slotWord m.slot y) else rowOf (s.plane pf m.plane.toNat) y)) ∧
        (∀ q a, ¬ (q = pf.val ∧ a % 2048 = m.plane.toNat) → t.plane q a = s.plane q a) ∧ t.mem = s.mem) ∧
  (∀ (pf : Fin 272) (m : Move) (rest : List Move) (s : State),
    (s.fold pf).moves = m :: rest → m.bank ≠ pf.val → m.data = [] → m.tag = none →
    ∀ g, freeTag s (16 * (s.fold pf).lf) 16 = some g → (m.out = false → rowCome s pf m g = none) →
    Goes (exec (.planeMoveComplete pf) s) fun t =>
      (∃ q : Pkt, Sent t q ∧ q.src.toNat = pf.val ∧ q.dst.toNat = m.bank % 512 ∧ q.unit = 0 ∧ q.tag = g ∧ q.len = 63 ∧
        q.word.toNat = 64 * m.slot.toNat ∧ q.fepv = true ∧ q.fep = (s.epochsAt pf).1 ∧
        if m.out then q.net = .data ∧ q.type = 0x11 ∧ q.body.ackreq = true ∧
          q.body.payload = (List.range 4).map (rowOf (s.plane pf m.plane.toNat))
        else q.net = .req ∧ q.type = 1) ∧
      (t.fold pf).moves = { m with tag := some g, data := if m.out then (List.range 64).map (rowOf (s.plane pf m.plane.toNat)) else [] }
        :: rest ∧ SamePes s t ∧ SamePlanes s t ∧ SamePrograms s t ∧ t.mem = s.mem) ∧
  (∀ (pf : Fin 272) (m : Move) (rest : List Move) (s : State),
    (s.fold pf).moves = m :: rest → m.bank ≠ pf.val → m.out = false → m.tag.isSome = true → m.data.length = 64 → m.row ≤ 63 →
    Goes (exec (.planeMoveComplete pf) s) fun t =>
      MovesLeft t pf rest ∧ SamePes s t ∧ SamePrograms s t ∧ t.mem = s.mem ∧
      (∀ y < 64, rowOf (t.plane pf m.plane.toNat) y =
        (if m.row ≤ y then m.data.getD y 0 else rowOf (s.plane pf m.plane.toNat) y)) ∧
      ∀ q a, ¬ (q = pf.val ∧ a % 2048 = m.plane.toNat) → t.plane q a = s.plane q a) ∧
  (∀ (pf : Fin 272) (h : Histo) (s : State), (s.fold pf).histo = some h →
    (h.left = 0 → Goes (exec (.histoPass pf) s) fun t =>
      (t.fold pf).histo = (if h.bins.length ≤ 64 then none else some { h with bins := h.bins.drop 64 }) ∧ SamePes s t ∧
      (ownMove s pf = false → SamePlanes s t) ∧
      (h.bank = pf.val → PortFree s pf → ∀ v n, h.bins = [(v, n)] → s.eccOf pf ((h.base.toNat + v) % 65536) = .good →
        wordAt t pf ((h.base.toNat + v) % 65536) = wordAt s pf ((h.base.toNat + v) % 65536) + BitVec.ofNat 64 n ∧
        MemOutside s t pf ((h.base.toNat + v) % 65536) 1) ∧
      (h.bank ≠ pf.val → t.mem = s.mem ∧ ∀ x ∈ h.bins.take 64, ∃ q : Pkt, Sent t q ∧ q.net = .req ∧ q.type = 3 ∧ q.unit = 1 ∧
        q.src.toNat = pf.val ∧ q.dst.toNat = h.bank % 512 ∧ q.word.toNat = (h.base.toNat + x.1) % 65536 ∧
        q.body.payload = [BitVec.ofNat 64 x.2])) ∧
    ∀ n, 1 ≤ n → n ≤ 6 → Reads h h.first n → h.bank = pf.val → PortFree s pf →
      (∀ v < 2 ^ n, s.eccOf pf ((h.base.toNat + v) % 65536) = .good) →
      Goes (exec (.histoPass pf) s) fun t =>
        (t.fold pf).histo = none ∧ SamePes s t ∧ SamePlanes s t ∧
        ∀ w < 65536, wordAt t pf w = wordAt s pf w + BitVec.ofNat 64
          (if (w + 65536 - h.base.toNat) % 65536 < 2 ^ n then countAt s pf h.mask h.first n ((w + 65536 - h.base.toNat) % 65536)
          else 0)) ∧
  ∀ (pf : Fin 272) (pen : Pen) (a b : Nat) (s : State), s.penOfFold pf = some pen → (s.fold pf).power = .on →
    s.frame.g832 = false → runsAhead s pf = false →
    pen.hints.find? (fun x => !((s.fold pf).copied.contains x) && !(copySent s pf pen.cfg x)) = some a →
    s.bankOf (s.fold pf).lf = some b →
    Goes (exec (.checkpointCopy pf) s) fun t =>
      let slot := pen.cfg.ckslot + (if s.validBuf1 (s.fold pf).lf then 0 else pen.cfg.carried) + (a - pen.cfg.cbase)
      SamePes s t ∧ SamePlanes s t ∧ SamePrograms s t ∧
      (b = pf.val → PortFree s pf → (∀ y < 64, wordAt t pf (64 * slot + y) = rowOf (s.plane pf a) y) ∧ a ∈ (t.fold pf).copied ∧
        MemOutside s t pf (64 * slot) 64) ∧
      (b ≠ pf.val → t.mem = s.mem ∧ ∀ g, freeTag s (16 * (s.fold pf).lf) 16 = some g → ∃ q : Pkt, Sent t q ∧ q.net = .data ∧
        q.type = 0x11 ∧ q.unit = 2 ∧ q.tag = g ∧ q.dst.toNat = b % 512 ∧ q.len = 63 ∧ q.word.toNat = 64 * slot % 65536 ∧
        q.body.payload = (List.range 64).map (rowOf (s.plane pf a)))

end Statements

namespace Sys2Proof.Claims

open Sys2Proof.Machine

/-! ### Word engines -/

/-- The pattern of element `k` of an extent in an engine's local memory (R172, R176). -/
def localElem (s : State) (e addr size k : Nat) : Nat := leNat (memBytes s.eng.mem (65536 * e + (addr - 2 ^ 31 + k * size)) size)

/-- Operand A of element `k`. -/
def opA (s : State) (e : Nat) (d : Desc) (k : Nat) : Nat := localElem s e d.a d.st.size k

/-- Operand B of element `k`: memory, or the immediate (R179). -/
def opB (s : State) (e : Nat) (d : Desc) (k : Nat) : Nat :=
  if d.immsel = 1 then d.imm % 2 ^ d.typeB.width else localElem s e d.b d.typeB.size k

/-- Operand C of element `k`: memory, or the immediate (R179). -/
def opC (s : State) (e : Nat) (d : Desc) (k : Nat) : Nat :=
  if d.immsel = 2 then d.imm % 2 ^ d.st.width else localElem s e d.c d.st.size k

/-- The head of an engine's queue is a descriptor with operands and results in local memory, whose words all have good
codes, with no trap enabled and results apart from the operands; what waits behind it is defined too. -/
def LocalHead (s : State) (e : Nat) (x : Dispatch) (rest : List Dispatch) (d : Desc) : Prop :=
  (s.engine e).queue = x :: rest ∧ parseDesc x.bytes = some d ∧ (∀ y ∈ rest, (parseDesc y.bytes).isSome) ∧ d.ten = 0 ∧
  (∀ y ∈ d.sources ++ d.dests, 2 ^ 31 ≤ y.1) ∧ (∀ y ∈ d.dests, ∀ z ∈ d.sources, overlaps y z = false) ∧
  (∀ w < 8192, Store.get s.eng.ecc .good (8192 * e + w) = .good)

/-- A descriptor that ended: it has left the queue, was counted and posts to the fold, MR and dispatch it came from; the
pasture, the array and every other engine's local memory are as they were. -/
def Ended (s t : State) (e : Nat) (x : Dispatch) (rest : List Dispatch) (v : Nat → Prop) : Prop :=
  (t.engine e).queue = rest ∧
  (∃ p : Post, t.eng.posts = s.eng.posts ++ [p] ∧ p.engine = x.engine ∧ p.pf = x.pf ∧ p.mr = x.mr ∧ p.id = x.id ∧
    p.fep = x.fep ∧ v p.value.toNat) ∧
  t.mem = s.mem ∧ t.arr = s.arr ∧ (∀ g a, g ≠ e → a < 65536 → memByte t.eng.mem (65536 * g + a) = memByte s.eng.mem (65536 * g + a))

/-- Every byte of an engine's local memory outside an extent is as it was. -/
def LocalOutside (s t : State) (e : Nat) (y : Nat × Nat × Nat) : Prop :=
  ∀ a < 65536, a < y.1 - 2 ^ 31 ∨ y.1 - 2 ^ 31 + y.2.1 * y.2.2 ≤ a →
    memByte t.eng.mem (65536 * e + a) = memByte s.eng.mem (65536 * e + a)

/-- The value of a pattern under an integer type. -/
def intVal (t : IntTy) (x : Nat) : Int := if t.sgn then (BitVec.ofNat t.width x).toInt else (x % 2 ^ t.width : Nat)

/-- The pattern of a value under an integer type: modulo 2 to its width (R186). -/
def intPat (t : IntTy) (v : Int) : Nat := (BitVec.ofInt t.width v).toNat

/-- An element-wise operation writes, in every element, what relates to its operands, and posts a status word with COUNT. -/
def ElementsAre (i : Instr) (s : State) (e : Nat) (op : Nat) (rel : Desc → Nat → Nat → Nat → Nat → Prop) : Prop :=
  ∀ (x : Dispatch) (rest : List Dispatch) (d : Desc), LocalHead s e x rest d → d.op = op → ¬ (d.op = 5 ∧ d.subop = 1) →
    Goes (exec i s) fun t =>
      (∀ k < d.count, rel d (opA s e d k) (opB s e d k) (opC s e d k) (localElem t e d.d d.dt.size k)) ∧
      LocalOutside s t e (d.d, d.dt.size, d.count) ∧ Ended s t e x rest fun v => v % 2 ^ 24 = d.count

/-- An operation on integer types by a function of the values; on floating-point types by a function of the data. -/
def byType (fi : IntTy → Int → Int → Int) (ff : Fmt → FpEnv → Fp → Fp → Nat) (env : Desc → FpEnv) (d : Desc) (x y _z r : Nat) :
    Prop :=
  (∀ t, d.st = .int t → r = intPat t (fi t (intVal t x) (intVal t y))) ∧
  (∀ f, d.st = .fp f → r = ff f (env d) (Fp.decode f (env d).daz x) (Fp.decode f (env d).daz y) % 2 ^ f.width)

/-- A value kept within an integer type. -/
def clamp (t : IntTy) (v : Int) : Int := max t.min (min t.max v)

/-- A COMPARE gives 1 or 0 (R179): by value for integers, where UN is 0, and by the predicate for floating point. -/
def compareRel (fi : Int → Int → Bool) (c : CmpFn) (env : Desc → FpEnv) (d : Desc) (x y _z r : Nat) : Prop :=
  (∀ t, d.st = .int t → r = (fi (intVal t x) (intVal t y)).toNat) ∧
  (∀ f, d.st = .fp f → r = (fpCompare c (Fp.decode f (env d).daz x) (Fp.decode f (env d).daz y)).1.toNat)

/-! ### Rounding and the tree of a reduction -/

/-- A pattern of a normal number of a format: its exponent field is neither 0 nor all ones (R191). -/
def Normal (f : Fmt) (x : Nat) : Prop :=
  x < 2 ^ f.width ∧ 0 < x / 2 ^ (f.p - 1) % 2 ^ (f.width - f.p) ∧ x / 2 ^ (f.p - 1) % 2 ^ (f.width - f.p) < 2 ^ (f.width - f.p) - 1

/-- The value of a normal number in units of the format's smallest subnormal. -/
def units (f : Fmt) (x : Nat) : Int :=
  (if x / 2 ^ (f.width - 1) = 1 then -1 else 1) *
    ((x % 2 ^ (f.p - 1) + 2 ^ (f.p - 1)) * 2 ^ (x / 2 ^ (f.p - 1) % 2 ^ (f.width - f.p) - 1) : Nat)

/-- How many of these units 1 is. -/
def oneUnits (f : Fmt) : Nat := 2 ^ (f.p - 1 + (2 ^ (f.width - f.p - 1) - 2))

/-- A magnitude of so many units of which `n` make one of the format's lies between its least and its greatest normal number. -/
def InNormalRange (f : Fmt) (n : Nat) (v : Int) : Prop :=
  2 ^ (f.p - 1) * n ≤ v.natAbs ∧ v.natAbs ≤ (2 ^ f.p - 1) * 2 ^ (2 ^ (f.width - f.p) - 3) * n

/-- A normal number is the exact value `v / n` rounded under RM: the nearest, of two equally near the even one; the greatest not
beyond it towards 0; the least not below it; the greatest not above it (R191). -/
def RightlyRounded (f : Fmt) (rm : Rm) (n : Nat) (v : Int) (r : Nat) : Prop :=
  Normal f r ∧
  match rm with
  | .rne => ∀ z, Normal f z → (units f r * n - v).natAbs ≤ (units f z * n - v).natAbs ∧
      ((units f r * n - v).natAbs = (units f z * n - v).natAbs → z = r ∨ r % 2 = 0)
  | .rtz => 0 < units f r * v ∧ (units f r * n).natAbs ≤ v.natAbs ∧
      ∀ z, Normal f z → (units f z * n).natAbs ≤ v.natAbs → (units f z).natAbs ≤ (units f r).natAbs
  | .rup => v ≤ units f r * n ∧ ∀ z, Normal f z → v ≤ units f z * n → units f r ≤ units f z
  | .rdn => units f r * n ≤ v ∧ ∀ z, Normal f z → units f z * n ≤ v → units f z ≤ units f r

/-- The elements that lane `j` of `l` accumulates, in index order (R181). -/
def laneElems (l n j : Nat) : List Nat := (List.range n).filter fun k => k % l == j

/-- The combining tree of 2^n lanes: pairs (0, 1), (2, 3) and so on, then pairs of the results; a lane that takes no part leaves its
partner's value (R181). -/
def combineTree (op : Nat → Nat → Nat) : Nat → (Nat → Option Nat) → Option Nat
  | 0, g => g 0
  | n + 1, g => combineTree op n fun j => match g (2 * j), g (2 * j + 1) with
    | some a, some b => some (op a b)
    | some a, none => some a
    | none, b => b

/-- The binary logarithm of the number of lanes: 8 lanes for types of 64 bits, else 16 (R171). -/
def laneBits (f : Fmt) : Nat := if f.width = 64 then 3 else 4

/-- A reduction of floating-point data in two phases: every lane accumulates its elements by a step from what it starts with, and the tree
combines the lanes (R181). -/
def reduced (f : Fmt) (count : Nat) (start : Option Nat) (step : Option Nat → Nat → Nat) (op : Nat → Nat → Nat) : Option Nat :=
  combineTree op (laneBits f) fun j => (laneElems (2 ^ laneBits f) count j).foldl (fun v k => some (step v k)) start

/-- A REDUCE of an integer type or a DOT posts and writes one scalar. -/
def ScalarIs (i : Instr) (s : State) (e : Nat) (op sub : Nat) (rel : Desc → Nat → Prop) : Prop :=
  ∀ (x : Dispatch) (rest : List Dispatch) (d : Desc), LocalHead s e x rest d → d.op = op → (op = 0xE → d.subop = sub) →
    Goes (exec i s) fun t =>
      rel d (localElem t e d.d d.dt.size 0) ∧ LocalOutside s t e (d.d, d.dt.size, 1) ∧
      Ended s t e x rest fun v => v % 2 ^ d.dt.width = localElem t e d.d d.dt.size 0

end Sys2Proof.Claims

section Statements

open Sys2Proof Sys2Proof.Machine Sys2Proof.Claims

/-- R173, R182 to R184, R127: a descriptor that arrives at an ON engine joins its queue, at a full one it is refused; a posting of
the current epoch for the dispatch that owns the MR lands, sets READY and clears PENDING, a stale one is counted. Its readings of
log entry 96 are the model's choice. -/
def Obligations.DispatchAndPosting : Prop :=
  (∀ (e : Fin 32) (x : Dispatch) (s : State), s.arr.flight.find? (·.engine == e.val) = some x → x.mr < 4 → x.pf < 272 →
    s.cutAt x.pf (engineNode e) = none → (s.engine e).power = .on → (s.engine e).hurdle = .opened →
    (∀ y ∈ s.queue (engineNode e) .req 4, y.stays = false) →
    Goes (exec (.dispatch e) s) fun t =>
      t.arr.flight = s.arr.flight.erase x ∧ t.mem = s.mem ∧
      ((s.engine e).queue.length < 8 → (parseDesc x.bytes).isSome → (∀ y ∈ (s.engine e).queue, (parseDesc y.bytes).isSome) →
        (t.engine e).queue = (s.engine e).queue ++ [x] ∧ t.regs = s.regs) ∧
      (8 ≤ (s.engine e).queue.length → (t.engine e).queue = (s.engine e).queue ∧
        (bit (s.reg .errrec0 e) 31 = false → t.rf .errrec0 e 31 31 = 1 ∧ t.rf .errrec0 e 27 24 = 6) ∧
        ((s.engine e).errFired = false → Pend t (1152 + 2 * e + 1)))) ∧
  ∀ (pf : Fin 272) (x : Post) (s : State), s.eng.posts.find? (·.pf == pf.val) = some x → x.mr < 4 →
    s.cutAt (engineNode x.engine) pf = none → (s.fold pf).hurdle = .opened →
    (∀ y ∈ s.queue pf .rsp 4, y.stays = false) →
    Goes (exec (.mrpost pf) s) fun t =>
      t.eng.posts = s.eng.posts.erase x ∧ t.mem = s.mem ∧ SamePes s t ∧ SamePlanes s t ∧
      if x.fep = bit s.frame.epoch 0 ∧ (s.seq pf).mrOwner[x.mr]! = x.id then
        (t.seq pf).mr[x.mr]! = x.value ∧ bit (t.seq pf).mrReady x.mr = true ∧ bit (t.seq pf).mrPend x.mr = false ∧
        (∀ k < 4, k ≠ x.mr → (t.seq pf).mr[k]! = (s.seq pf).mr[k]! ∧ bit (t.seq pf).mrReady k = bit (s.seq pf).mrReady k ∧
          bit (t.seq pf).mrPend k = bit (s.seq pf).mrPend k) ∧ t.regs = s.regs
      else
        (t.seq pf).mr = (s.seq pf).mr ∧ (t.seq pf).mrReady = (s.seq pf).mrReady ∧ (t.seq pf).mrPend = (s.seq pf).mrPend ∧
        (x.fep ≠ bit s.frame.epoch 0 → t.rf .stalecnt 0 31 0 = min (s.rf .stalecnt 0 31 0 + 1) (2 ^ 32 - 1))

/-- R179, R186, R188, R196: the element-wise operations over local memory, integer types by their values, floating-point types by
the operations of R191. R179, R186, R196: the COMPARE operations give 1 where the relation holds and 0 elsewhere. -/
def Obligations.EngineElements : Prop :=
  (∀ (e : Fin 32) (s : State),
    let env := fun d => fpEnv s e d
    ElementsAre (.engCopy e) s e 0 (fun d x _ _ r => r = x % 2 ^ d.st.width) ∧
    ElementsAre (.engAdd e) s e 1 (byType (fun _ x y => x + y) (fun f v x y => (fpAdd f v x y).1) env) ∧
    ElementsAre (.engSub e) s e 2 (byType (fun _ x y => x - y) (fun f v x y => (fpAdd f v x (fpNeg y)).1) env) ∧
    ElementsAre (.engMul e) s e 3 (byType (fun _ x y => x * y) (fun f v x y => (fpMul f v x y).1) env) ∧
    ElementsAre (.engFma e) s e 4 (fun d x y z r => ∀ f, d.st = .fp f → r = (fpFma f (env d) (Fp.decode f (env d).daz x)
      (Fp.decode f (env d).daz y) (Fp.decode f (env d).daz z)).1 % 2 ^ f.width) ∧
    ElementsAre (.engDiv e) s e 5 (fun d x y _ r =>
      (∀ t, d.st = .int t →
        let a := intVal t x
        let b := intVal t y
        if b = 0 then r = (if d.subop = 2 then intPat t a else 0)
        else if t.sgn ∧ a = t.min ∧ b = -1 then r = (if d.subop = 2 then 0 else intPat t a)
        else r = intPat t (if d.subop = 2 then a.tmod b else a.tdiv b)) ∧
      (∀ f, d.st = .fp f → r = (fpDiv f (env d) (Fp.decode f (env d).daz x) (Fp.decode f (env d).daz y)).1 % 2 ^ f.width)) ∧
    (∀ (x : Dispatch) (rest : List Dispatch) (d : Desc) (u : IntTy), LocalHead s e x rest d → d.op = 5 → d.subop = 1 →
      d.st = .int u → overlaps (d.d, d.dt.size, d.count) (d.c, d.dt.size, d.count) = false →
      Goes (exec (.engDiv e) s) fun t =>
        (∀ k < d.count,
          let a := intVal u (opA s e d k)
          let b := intVal u (opB s e d k)
          b ≠ 0 → ¬ (u.sgn ∧ a = u.min ∧ b = -1) →
          localElem t e d.d d.dt.size k = intPat u (a.tdiv b) ∧ localElem t e d.c d.dt.size k = intPat u (a.tmod b)) ∧
        Ended s t e x rest fun v => v % 2 ^ 24 = d.count) ∧
    ElementsAre (.engSqrt e) s e 6 (fun d x _ _ r => ∀ f, d.st = .fp f →
      r = (fpSqrt f (env d) (Fp.decode f (env d).daz x)).1 % 2 ^ f.width) ∧
    ElementsAre (.engMin e) s e 7 (byType (fun _ x y => min x y) (fun f v x y => (fpMinMax f v false x y).1) env) ∧
    ElementsAre (.engMax e) s e 8 (byType (fun _ x y => max x y) (fun f v x y => (fpMinMax f v true x y).1) env) ∧
    ElementsAre (.engAbs e) s e 9 (fun d x _ _ r =>
      (∀ t, d.st = .int t → r = intPat t (intVal t x).natAbs) ∧ (∀ f, d.st = .fp f → r = x % 2 ^ (f.width - 1))) ∧
    ElementsAre (.engNeg e) s e 0xA (fun d x _ _ r =>
      (∀ t, d.st = .int t → r = intPat t (-(intVal t x))) ∧
      (∀ f, d.st = .fp f → r = (x + 2 ^ (f.width - 1)) % 2 ^ f.width)) ∧
    ElementsAre (.engConvert e) s e 0xB (fun d x _ _ r =>
      (∀ t u, d.st = .int t → d.dt = .int u → r = intPat u (clamp u (intVal t x))) ∧
      (∀ f g, d.st = .fp f → d.dt = .fp g → r = (fpConvert g (env d) (Fp.decode f (env d).daz x)).1 % 2 ^ g.width) ∧
      (∀ f u, d.st = .fp f → d.dt = .int u → r = (fpToIntOp u (env d).rm (Fp.decode f (env d).daz x)).1 % 2 ^ u.width) ∧
      (∀ t g, d.st = .int t → d.dt = .fp g → r = (roundInt g (env d) (intVal t x) 0 false).1 % 2 ^ g.width)) ∧
    ElementsAre (.engScale e) s e 0xD (fun d x y _ r => ∀ f, d.st = .fp f →
      r = (fpScale f (env d) (Fp.decode f (env d).daz x) (BitVec.ofNat 32 y).toInt).1 % 2 ^ f.width)) ∧
  (∀ (e : Fin 32) (s : State),
    let env := fun d => fpEnv s e d
    (∀ k : Fin 4, ∀ (x : Dispatch) (rest : List Dispatch) (d : Desc), LocalHead s e x rest d → d.op = 0xC → d.subop = k.val →
      Goes (exec ([Instr.compareEq e, .compareLt e, .compareLe e, .compareUn e][k]) s) fun t =>
        (∀ j < d.count, compareRel ([(fun a b : Int => decide (a = b)), (fun a b => decide (a < b)),
            (fun a b => decide (a ≤ b)), (fun _ _ => false)][k]) ([CmpFn.eq, .lt, .le, .un][k]) env d
          (opA s e d j) (opB s e d j) 0 (localElem t e d.d d.dt.size j)) ∧
        LocalOutside s t e (d.d, d.dt.size, d.count) ∧ Ended s t e x rest fun v => v % 2 ^ 24 = d.count))

/-- R171, R181, R191, R196: REDUCE of an integer type gives the sum modulo 2 to the width, the least or the greatest value; of a
floating-point type, and DOT, the value of the lanes' steps and of the tree over them; DOT with a NaN among its operands gives the
canonical NaN; the steps' sums, products and fused products are rounded correctly under RM. Its readings of log entry 130 are the model's
choice. -/
def Obligations.EngineReductions : Prop :=
  ∀ (e : Fin 32) (s : State),
    ScalarIs (.reduceSum e) s e 0xE 0 (fun d r => ∀ t, d.st = .int t →
      r = intPat t ((List.range d.count).map fun k => intVal t (opA s e d k)).sum) ∧
    ScalarIs (.reduceMin e) s e 0xE 1 (fun d r => ∀ t, d.st = .int t →
      (∃ k < d.count, r = intPat t (intVal t (opA s e d k))) ∧ ∀ k < d.count, intVal t r ≤ intVal t (opA s e d k)) ∧
    ScalarIs (.reduceMax e) s e 0xE 2 (fun d r => ∀ t, d.st = .int t →
      (∃ k < d.count, r = intPat t (intVal t (opA s e d k))) ∧ ∀ k < d.count, intVal t (opA s e d k) ≤ intVal t r) ∧
    ScalarIs (.engDot e) s e 0xF 0 (fun d r => ∀ f, d.st = .fp f →
      (∃ k < d.count, ∃ q, Fp.decode f (fpEnv s e d).daz (opA s e d k) = .nan q ∨
        Fp.decode f (fpEnv s e d).daz (opB s e d k) = .nan q) → r = f.nan) ∧
    (let dec := fun (f : Fmt) (d : Desc) => Fp.decode f (fpEnv s e d).daz
    let add := fun (f : Fmt) (d : Desc) a b => (fpAdd f (fpEnv s e d) (dec f d a) (dec f d b)).1
    let least := fun (most : Bool) (f : Fmt) (d : Desc) a b => (fpMinMax f (fpEnv s e d) most (dec f d a) (dec f d b)).1
    let minusZero := fun (f : Fmt) => 2 ^ (f.width - 1)
    ScalarIs (.reduceSum e) s e 0xE 0 (fun d r => ∀ f, d.st = .fp f →
      some r = reduced f d.count (some (minusZero f)) (fun v k => add f d (v.getD 0) (opA s e d k)) (add f d)) ∧
    ScalarIs (.reduceMin e) s e 0xE 1 (fun d r => ∀ f, d.st = .fp f →
      some r = reduced f d.count none (fun v k => least false f d (v.getD (opA s e d k)) (opA s e d k)) (least false f d)) ∧
    ScalarIs (.reduceMax e) s e 0xE 2 (fun d r => ∀ f, d.st = .fp f →
      some r = reduced f d.count none (fun v k => least true f d (v.getD (opA s e d k)) (opA s e d k)) (least true f d)) ∧
    ScalarIs (.engDot e) s e 0xF 0 (fun d r => ∀ f, d.st = .fp f →
      some r = reduced f d.count (some (minusZero f)) (fun v k =>
        (fpFma f (fpEnv s e d) (dec f d (opA s e d k)) (dec f d (opB s e d k)) (dec f d (v.getD 0))).1) (add f d))) ∧
    ∀ f ∈ [binary32, binary64], ∀ (env : FpEnv) (x y z : Nat), Normal f x → Normal f y → Normal f z →
      let dec := Fp.decode f env.daz
      (InNormalRange f 1 (units f x + units f y) →
        RightlyRounded f env.rm 1 (units f x + units f y) (fpAdd f env (dec x) (dec y)).1) ∧
      (InNormalRange f (oneUnits f) (units f x * units f y) →
        RightlyRounded f env.rm (oneUnits f) (units f x * units f y) (fpMul f env (dec x) (dec y)).1) ∧
      (InNormalRange f (oneUnits f) (units f x * units f y + units f z * oneUnits f) →
        RightlyRounded f env.rm (oneUnits f) (units f x * units f y + units f z * oneUnits f)
          (fpFma f env (dec x) (dec y) (dec z)).1)

end Statements

namespace Sys2Proof.Claims

open Sys2Proof.Machine

/-! ### Registers, events and the clock -/

/-- Every register but those named is as it was. -/
def RegsKept (l : List RegName) (s t : State) : Prop :=
  ∀ n, n ∉ l → ∀ i < n.row.icount, ∀ j < n.row.jcount, t.reg n i j = s.reg n i j

/-- Every other element of a register is as it was. -/
def OthersKept (n : RegName) (i : Nat) (s t : State) : Prop := ∀ k < n.row.icount, k ≠ i → t.reg n k = s.reg n k

/-- The registers an event can change (R402 to R405). -/
def eventRegs : List RegName := [.evtPend, .evtStat, .ringhead, .msixPba]

/-- What events and writes to some registers change: those registers, the ring and vectors, what the block sends. -/
def OnlyRegs (l : List RegName) (s t : State) : Prop :=
  t = { s with regs := t.regs, out := t.out, evt := t.evt } ∧ RegsKept (eventRegs ++ l) s t

/-- A source has fired and no other has. -/
def FiredOnly (src : Nat) (s t : State) : Prop := Pend t src ∧ ∀ k < 1280, k ≠ src → (Pend t k ↔ Pend s k)

/-- The clock has moved on, and with it the ring: samplers, flip-flops, strobes, encoder inputs, probe outputs, the tick net, pins that take
their new levels, and the command words that egress channels have found; nothing else has happened. -/
def Passed (s u : State) : Prop :=
  s.frame.time ≤ u.frame.time ∧
  u = { s with frame := { s.frame with time := u.frame.time, cycle := u.frame.cycle }
               edge := { s.edge with samp := u.edge.samp, inp := u.edge.inp, ff := u.edge.ff, strobe := u.edge.strobe, on := u.edge.on
                                     encs := u.edge.encs, prb := u.edge.prb, net := u.edge.net, netEdges := u.edge.netEdges
                                     marks := u.edge.marks, hits := u.edge.hits, samples := u.edge.samples } }

/-- The clock has moved up to a frame cycle, if it stood below it (R14, R17). -/
def PassedTo (c : Nat) (s u : State) : Prop :=
  Passed s u ∧ (s.frame.ticked = true → c < 2 ^ 31 → u.frame.cycle = max s.frame.cycle c)

/-- The clock has moved up to a time since t0, if it stood below it. -/
def PassedUntil (t : Nat) (s u : State) : Prop := Passed s u ∧ u.frame.time = max s.frame.time t

/-- A domain that opens at a node has the hub's EPOCH notice of the frame: one it had before, or one with the frame's epochs (R266, R273). -/
def Noticed (n : Nat) (s t : State) : Prop :=
  Store.get t.dw.notices none n =
    some ((Store.get s.dw.notices none n).getD (bit s.frame.epoch 0, s.dw.tep, s.frame.epoch.setWidth 16))

/-- Nothing waits at a bank and no move of its fold uses it, so that its port serves what comes now and no other writes there. -/
def BanksQuiet (s : State) : Prop := ∀ b, (s.bank b).waiting = [] ∧ ownMove s b = false

/-- What a tick request of a source does (R15, R18, R22, R23): nothing where the source is not the one selected or no tick has
come; the late original of a substituted tick is absorbed; a second request is extra; else it is held. -/
def Requested (src : Nat) (u t : State) : Prop :=
  if u.rf .tickcfg 0 2 0 ≠ src ∨ u.frame.ticked = false then t = u
  else if u.frame.absorb = true ∧ u.frame.cycle < min (u.rf .tickwait 0 29 0) (u.period - 1) then
    t = { u with frame := { u.frame with absorb := false } }
  else if u.frame.held = true then
    FiredOnly 0 u t ∧ t.rf .tickstat 0 15 0 = min (u.rf .tickstat 0 15 0 + 1) 65535 ∧
    OnlyRegs [.tickstat] { u with hub := { u.hub with missedNow := true } } t
  else t = { u with frame := { u.frame with held := true } }

/-- The pens of a state have different first logical folds, and no logical fold is in two of them (R63). -/
def PensApart (t : State) : Prop :=
  ∀ p ∈ t.arr.pens, ∀ q ∈ t.arr.pens, p ≠ q → p.cfg.first ≠ q.cfg.first ∧ ∀ lf ∈ p.members, lf ∉ q.members

/-- A fold may lead its pen: active, not LOST, ON with its hurdle open or waking toward ON (R65). -/
def MayLead (f : Fold) : Prop :=
  f.role = .active ∧ f.lost = false ∧ ((f.power = .on ∧ f.hurdle = .opened) ∨ f.power = .waking)

/-- The leader of a pen is its lowest-numbered member that may lead, and it has none where no member may (R65). -/
def LedByLowest (t : State) (p : Pen) : Prop :=
  match p.leader with
  | none => ∀ pf ∈ t.memberFolds p, ¬ MayLead (t.fold pf)
  | some pf => pf ∈ t.memberFolds p ∧ MayLead (t.fold pf) ∧ ∀ q ∈ (t.memberFolds p).takeWhile (· != pf), ¬ MayLead (t.fold q)

/-- Every leader is a member of its pen (R65). -/
def LeadersIn (t : State) : Prop := ∀ p ∈ t.arr.pens, ∀ pf, p.leader = some pf → pf ∈ t.memberFolds p

/-- A sequencer in the clean start of R26. -/
def CleanSeq (entry : BitVec 14) (q : Seq) : Prop :=
  q.pc = entry ∧ q.core.wb = 0 ∧ q.core.depth = 0 ∧ (∀ r : Fin 8, q.core.s[r] = 0) ∧ q.rep = none ∧ q.load = none ∧
  q.latch = false ∧ q.red = none ∧ q.ra = none ∧ q.cancel = none ∧ q.mrReady = 0

end Sys2Proof.Claims

section Statements

open Sys2Proof Sys2Proof.Machine Sys2Proof.Claims

/-- Taking the command at the front of the queue is running it on the rest. -/
def Obligations.StepRunsFront : Prop :=
  ∀ (c : Instr) (rest : List Instr) (s : State), step { s with pending := c :: rest } = exec c { s with pending := rest }

/-- On an empty queue one ACLK cycle passes, and a module without a supply stays as it is (log entry 2, the model's choice). -/
def Obligations.IdleCycle : Prop :=
  ∀ s : State, s.pending = [] → Goes (step s) fun t =>
    t.pending = [] ∧ t.frame.epoch = s.frame.epoch ∧
    (if s.hub.supply = .off then t = s else t.frame.time = s.frame.time + 1)

/-- No command touches the queue: what waits behind it is there after it. -/
def Obligations.QueueIsKept : Prop :=
  ∀ (c : Instr) (s : State), Goes (exec c s) fun t => t.pending = s.pending

/-- R24, R35, R65, R255, R263, R264: a tick that is due opens a frame: its epoch is one higher, or that of a received EPOCH symbol on a
SYNC follower; its cycles count from 0; requests are cleared; LATEMAP shows the pens that were late; every pen gets the leader of R65;
the routers switch their table epoch, the drain window opens and no tag of an old epoch is held; one that is not due does nothing. -/
def Obligations.TickOpensFrame : Prop :=
  ∀ s : State, (s.tickDue = false → exec .tick s = .next s) ∧
    (s.tickDue = true → s.hub.fw.st ≠ .scheduled → Goes (exec .tick s) fun t =>
      t.frame.epoch = (if s.rf .tickcfg 0 2 0 = 4 ∧ s.frame.subst = false then s.frame.rxEpoch.getD (s.frame.epoch + 1)
        else s.frame.epoch + 1) ∧
      t.frame.cycle = 0 ∧ t.frame.ticked = true ∧ t.frame.hold = false ∧ t.frame.held = false ∧
      t.frame.absorb = s.frame.subst ∧ t.frame.guardDone = false ∧ s.frame.time ≤ t.frame.time ∧
      (∀ i < 8, ∀ j < 32, bit (t.reg .latemap i) j = match s.penOf (32 * i + j) with
        | none => false
        | some p => s.penLate p) ∧
      (∀ p ∈ t.arr.pens, LedByLowest t p) ∧
      t.dw.tep = !s.dw.tep ∧ t.dw.oldTabs = s.dw.tabs ∧ t.dw.drain = true ∧
      t.hub.fuses = s.hub.fuses ∧ t.ldr.slots = s.ldr.slots ∧ (∀ g h, t.tag g = some h → oldEpoch t h.pkt = false) ∧
      (s.hub.wipe = none → BanksQuiet s → (∀ b < 272, (s.bank b).power ≠ .off ∧ (s.bank b).hurdle ≠ .closing) → t.mem = s.mem))

/-- R24, R26, R27: every pen that takes frame entry at a tick starts clean at its entry, its members' PEs cleared with A all ones,
and issues nothing yet. -/
def Obligations.TickEntersPens : Prop :=
  ∀ s : State, s.tickDue = true → s.hub.fw.st ≠ .scheduled → (∀ pf, (s.seq pf).ra = none) →
    Goes (exec .tick s) fun t => PensApart t → ∀ p ∈ t.arr.pens, p.entered = true →
      p.run = false ∧ p.stopped = false ∧ p.stage = 0 ∧ p.yielded = [] ∧ p.hints = [] ∧ p.late = false ∧ p.completed = false ∧
      (∃ pf, p.leader = some pf ∧ pf ∈ t.memberFolds p ∧ CleanSeq p.cfg.entry (t.seq pf)) ∧
      ∀ pf ∈ t.liveFolds p, (t.fold pf).pe.w = 0 ∧ (t.fold pf).pe.c = 0 ∧ (t.fold pf).pe.a = BitVec.allOnes 4096 ∧
        (t.fold pf).pe.t = 0 ∧ (t.fold pf).pe.x = 0

/-- R15, R16, R18, R19, R21 to R23, R348: tick requests from the tick net, the host and a lane's PTP clock; hold from cycle P
on, and the missed tick at P + WAIT with its count, its source and its substitute. R49 to R51, R349, R350: a TICK symbol is repeated
by a follower after 40 - CABLE ns and requests a tick after the delay of its position; an EPOCH symbol is repeated, kept when its CRC is
right and counted when it is not; LOCK follows the receiver. Its readings of log entries 54, 88 and 93 are the model's choice. -/
def Obligations.TickSourcesAndSync : Prop :=
  (∀ s : State,
    (∀ pin : Option Bool,
      let v := { s with edge := { s.edge with tickIn := pin.getD s.edge.tickIn } }
      let n := s.edge.netEdges + (tickNet v && !s.edge.net && s.rf .tickcfg 0 2 0 == 1).toNat
      let u := { v with edge := { v.edge with net := tickNet v, netEdges := n - 1 } }
      Goes (exec (.tickNetEdge pin) s) fun t =>
        (0 < n → Requested 1 u t) ∧ (n = 0 → pin.isSome = true → t = u) ∧
        (n = 0 → pin = none → t = s ∨ ∃ w, Passed s w ∧ w.frame.time ≤ s.frame.time + 3 ∧ Requested 1 w t)) ∧
    (∀ w : Word, Goes (exec (.hosttick w) s) fun t => if bit w 0 = true then Requested 3 s t else t = s) ∧
    (s.rf .tickcfg 0 2 0 = 2 → s.etherLane (s.rf .tickcfg 0 12 8) = true → Goes (exec .ptpCompare s) fun t =>
      let l := s.rf .tickcfg 0 12 8
      let next := addr64 (s.reg .ltnextLo) (s.reg .ltnextHi)
      let gap := (next * 2 ^ 32 + 2 ^ 96 - ptpNow s l) % 2 ^ 96
      ∃ k v u, PassedUntil (s.frame.time + k) s v ∧ OnlyRegs [.ltnextLo, .ltnextHi] v u ∧ Requested 2 u t ∧
        addr64 (u.reg .ltnextLo) (u.reg .ltnextHi) = (next + s.rf .ltintv 0 29 0) % 2 ^ 64 ∧
        (2 ^ 95 ≤ gap → k = 0) ∧
        (gap < 2 ^ 95 → 0 < ptpRate s l → gap ≤ k * ptpRate s l ∧ ∀ j < k, j * ptpRate s l < gap)) ∧
    (s.ticks = true → s.tickDue = false → s.frame.hold = false → Goes (exec .hold s) fun t =>
      ∃ u, PassedTo s.period s u ∧ t = { u with frame := { u.frame with hold := true } }) ∧
    (s.ticks = true → s.frame.held = false → s.frame.hold = true → s.frame.missed = false → Goes (exec .tickMissed s) fun t =>
      ∃ u, PassedTo (s.period + s.rf .tickwait 0 29 0) s u ∧ FiredOnly 0 u t ∧
        t.rf .tickstat 0 31 16 = min (s.rf .tickstat 0 31 16 + 1) 65535 ∧
        let sub := s.rf .tickcfg 0 5 4 == 0 || s.ldr.load.isSome
        OnlyRegs [.tickstat] { u with frame := { u.frame with missed := true, held := sub, subst := sub }
                                      hub := { u.hub with missedNow := true } } t)) ∧
  (∀ s : State,
    let follows := bit (s.reg .synccfg) 8 && s.rf .synccfg 0 3 0 != 0
    let wait := 40 - s.rf .syncphy 0 4 0
    Goes (exec .tickSymbol s) (fun t => ∃ v u, PassedUntil (s.frame.time + wait) s v ∧
      PassedUntil (v.frame.time + 40 * (s.rf .synccfg 0 7 4 - s.rf .synccfg 0 3 0))
        { v with out := v.out ++ if follows then [.sync [0x3C]] else [] } u ∧ Requested 4 u t) ∧
    (∀ (e : BitVec 48) (crc : Byte), Goes (exec (.epochSymbol e crc) s) fun t => ∃ v, PassedUntil (s.frame.time + wait) s v ∧
      t.out = s.out ++ (if follows then [.sync (epochChars e crc)] else []) ∧
      (crc8 (leBytes 6 e.toNat) = crc.toNat → t = { v with out := t.out, frame := { v.frame with rxEpoch := some e } }) ∧
      (crc8 (leBytes 6 e.toNat) ≠ crc.toNat → OnlyRegs [.syncstat] v t ∧
        t.rf .syncstat 0 15 0 = min (s.rf .syncstat 0 15 0 + 1) 65535)) ∧
    ∀ lock : Bool, Goes (exec (.syncInLock lock) s) fun t =>
      bit (t.reg .syncstat) 31 = lock ∧ OnlyRegs [.syncstat, .clkstat] s t ∧ t.rf .syncstat 0 15 0 = s.rf .syncstat 0 15 0)

/-- R29 to R31: at a stage's start each participant that has entered turns to its entry with WB 0 and an empty stack and issues
unless it has yielded for the stage; at its deadline one that has not yielded stops, is LATE and raises LATE, its run-ahead cancelled
(R168). -/
def Obligations.Stages : Prop :=
  ∀ (k : Fin 16) (s : State) (st : Stage), s.stages[k.val]? = some st → s.ticks = true → s.frame.hold = false →
    (st.parts.map (·.1)).Nodup → PensApart s → LeadersIn s →
    Goes (exec (.stageStart k) s) (fun t =>
      (∀ x ∈ st.parts, ∀ p, s.penAt x.1 = some p → p.entered = true → p.stopped = false →
        (PenThen t x.1 fun n => n.stage = k.val ∧ n.run = !(p.yielded.contains k.val)) ∧
        ∀ pf, p.leader = some pf →
          (t.seq pf).pc = x.2 ∧ (t.seq pf).core.wb = 0 ∧ (t.seq pf).core.depth = 0 ∧ (t.seq pf).core.s = (s.seq pf).core.s) ∧
      (∀ p, p ∉ st.parts.map (·.1) → t.penAt p = s.penAt p) ∧ SamePes s t ∧ SamePlanes s t ∧ SamePrograms s t ∧ t.regs = s.regs ∧
      t.mem = s.mem) ∧
    Goes (exec (.deadlineStop k) s) (fun t =>
      (∀ x ∈ st.parts, ∀ p, s.penAt x.1 = some p → p.entered = true → p.stopped = false →
        (if p.yielded.contains k.val then PenThen t x.1 fun n => n.late = p.late ∧ n.stopped = false
        else (PenThen t x.1 fun n => n.late = true ∧ n.stopped = true) ∧
          ∀ pf, p.leader = some pf → Pend t (64 + 4 * pf + 1) ∧ (t.seq pf).red = none ∧ (t.seq pf).ra = none ∧
            ∀ x, (s.seq pf).ra = some x → (t.seq pf).cancel = some x.alt)) ∧
      (∀ p, p ∉ st.parts.map (·.1) → t.penAt p = s.penAt p) ∧ SamePrograms s t ∧ RegsKept (eventRegs ++ [.racnt, .raabs]) s t ∧ t.mem = s.mem)

/-- R32 to R34, R45, R46, R264, R304: cycle G abandons word-engine work and clears moves and tallies; the flush writes alternate
buffers only; at G + 832 a pen whose members have copied every carried plane switches its buffers, any other is LATE; at G + 960 a
complete loading is ready; at cycle 2,000 the drain window closes and what is left of the old epoch is absorbed (R43, R265). Its
readings of log entries 22, 44, 79, 91 and 103 are the model's choice. -/
def Obligations.GuardBand : Prop :=
  ∀ s : State,
    (∀ done : List (Fin 32 × Nat), s.ticks = true → s.frame.guardDone = false → Goes (exec (.guardBand done) s) fun t =>
      t.frame.guardDone = true ∧ (∀ pf, (t.fold pf).moves = [] ∧ (t.fold pf).histo = none) ∧
      (∀ e < 32, (t.engine e).queue = []) ∧ (∀ x ∈ t.arr.flight, 32 ≤ x.engine) ∧ SamePes s t ∧
      ((∀ pf, ownMove s pf = false) → SamePlanes s t) ∧ SamePrograms s t) ∧
    (∀ cut : List (Fin 272), s.ticks = true → s.frame.g832 = false → Goes (exec (.checkpointFlush cut) s) fun t =>
      SamePes s t ∧ ((∀ pf, ownMove s pf = false) → SamePlanes s t) ∧ SamePrograms s t ∧ t.arr.buf1 = s.arr.buf1 ∧
      (∀ pf a, a ∈ (s.fold pf).copied → a ∈ (t.fold pf).copied) ∧
      ∀ p ∈ s.arr.pens, p.entered = true → s.penOnTime p = true →
        (p.cfg.planes.filter fun a => !(p.hints.contains a)).length ≤ 12 →
        ∀ pf ∈ s.liveFolds p, (∀ x ∈ cut, x.val ≠ pf) → s.bankOf (s.fold pf).lf = some pf → s.bankShut pf = false →
          ∀ a ∈ p.cfg.planes, a ∉ p.hints → a ∈ (t.fold pf).copied) ∧
    (s.ticks = true → s.frame.g832 = false → PensApart s → Goes (exec .checkpointValidity s) fun t =>
      t.frame.g832 = true ∧ t.mem = s.mem ∧ t.regs = s.regs ∧ SamePlanes s t ∧
      ∀ p ∈ s.arr.pens, p.entered = true → s.penOnTime p = true →
        if ∀ pf ∈ s.memberFolds p, ∀ a ∈ p.cfg.planes, a ∈ (s.fold pf).copied then
          (PenThen t p.cfg.first fun n => n.completed = true ∧ n.late = p.late) ∧
          ∀ lf ∈ p.members, t.validBuf1 lf = !(s.validBuf1 lf)
        else (PenThen t p.cfg.first fun n => n.late = true) ∧ ∀ lf ∈ p.members, t.validBuf1 lf = s.validBuf1 lf) ∧
    (s.ticks = true → s.frame.g960 = false → Goes (exec .readinessLatch s) fun t => ∃ u, PassedTo (s.guard + 960) s u ∧
      t = { u with
        frame := { u.frame with g960 := true }
        ldr := { s.ldr with
          act := if s.ldr.act = .loading ∧ s.ldr.load.any (·.complete) = true then .ready else s.ldr.act
          actArmed := s.ldr.actArmed || s.ldr.act == .pending } }) ∧
    (s.dw.drain = true → Store.wf s.dw.queues [] = true → Goes (exec .drainWindowClose s) fun t =>
      t.dw.drain = false ∧ (s.frame.ticked = true → t.frame.cycle = max s.frame.cycle 2000) ∧
      (∀ n net port, ∀ x ∈ t.queue n net port, x.pkt.net = .snp ∨ x.pkt.tep = s.dw.tep ∨ 0 < x.sent) ∧
      (∀ n net port, (∀ x ∈ s.queue n net port, x.pkt.net = .snp ∨ x.pkt.tep = s.dw.tep ∨ 0 < x.sent) →
        t.queue n net port = s.queue n net port) ∧
      (∀ d ∈ t.arr.flight, d ∈ s.arr.flight ∧ d.fep = bit s.frame.epoch 0) ∧
      (∀ x ∈ t.eng.posts, x ∈ s.eng.posts ∧ x.fep = bit s.frame.epoch 0) ∧
      ((∀ n net port, ∀ x ∈ s.queue n net port, x.pkt.type ≠ 7 ∧ x.pkt.type ≠ 4) →
        t.arr.flight = s.arr.flight.filter (fun d => d.fep == bit s.frame.epoch 0) ∧
        t.eng.posts = s.eng.posts.filter (fun x => x.fep == bit s.frame.epoch 0)) ∧
      SamePes s t ∧ SamePlanes s t ∧ SamePrograms s t ∧ t.mem = s.mem ∧ t.dw.tags = s.dw.tags)

/-- R48, R79, R80, R83, R235, R266, R273: a heartbeat of an ON fold is noted; a missing one at cycle 2,000 fails the fold, with
FAULT once in a frame; waking pens, banks and engines come ON at their cycles, each with its EPOCH notice and its hurdle open, and a pen
that owes a restore makes it. Its readings of log entries 52 and 94 are the model's choice. -/
def Obligations.HeartbeatsAndWakes : Prop :=
  ∀ s : State,
    (∀ pf : Fin 272, (s.fold pf).power = .on → Goes (exec (.heartbeat pf) s) fun t =>
      t.fold pf = { s.fold pf with beat := true } ∧ (∀ q, q ≠ pf.val → t.fold q = s.fold q) ∧ OnlyArray s t ∧
      SamePlanes s t ∧ SamePrograms s t) ∧
    (∀ pf : Fin 272, s.frame.ticked = true → s.frame.hold = false → (s.fold pf).power = .on → (s.fold pf).beat = false →
      Goes (exec (.heartbeatMissed pf) s) fun t =>
        t.rf .faultstat pf 3 3 = 1 ∧ t.frame.cycle = max s.frame.cycle 2000 ∧ pf.val ∈ t.arr.failed ∧ (t.fold pf).faultFired = true ∧
        ((s.fold pf).faultFired = false → Pend t (64 + 4 * pf + 3) ∧ t.cairn.next = (s.cairn.next + 1) % 2 ^ 32) ∧
        ((s.fold pf).faultFired = true → t.cairn = s.cairn ∧ ∀ b, t.reg .evtPend b = s.reg .evtPend b) ∧ SamePes s t ∧ SamePlanes s t ∧ t.mem = s.mem) ∧
    (∀ (p : Fin 256) (n : Pen), s.penAt p = some n → (∃ pf ∈ s.memberFolds n, (s.fold pf).power = .waking) →
      Goes (exec (.penWake p) s) fun t =>
        (∀ pf ∈ s.memberFolds n, (s.fold pf).power = .waking → (t.fold pf).power = .on ∧ (t.fold pf).hurdle = .opened ∧ Noticed pf s t) ∧
        (∀ pf, pf ∉ s.memberFolds n → (t.fold pf).power = (s.fold pf).power) ∧ SamePes s t ∧ (BanksQuiet s → t.mem = s.mem) ∧
        (s.frame.ticked = true → t.frame.cycle = max s.frame.cycle 1000) ∧
        (n.entered = true → n.restoreOwed = true → PenThen t p fun m =>
          m.restoreOwed = false ∧ m.notBefore = 1016 + 64 * n.cfg.carried)) ∧
    (∀ b : Fin 272, (s.bank b).power = .waking → Goes (exec (.bankWake b) s) fun t => ∃ u, PassedTo (s.bank b).opensAt s u ∧
      t.frame = u.frame ∧ t.mem = s.mem ∧ t.arr = s.arr ∧ t.eng = s.eng ∧ t.hub = s.hub ∧ t.ldr = s.ldr ∧ Noticed b s t ∧
      t.bank b = { s.bank b with power := .on, hurdle := .opened } ∧ ∀ c, c ≠ b.val → t.bank c = s.bank c) ∧
    ∀ e : Fin 32, (s.engine e).power = .waking → Goes (exec (.engineWake e) s) fun t => ∃ u, PassedTo (s.engine e).opensAt s u ∧
      t.frame = u.frame ∧ t.mem = s.mem ∧ t.arr = s.arr ∧ t.banks = s.banks ∧ t.hub = s.hub ∧ t.ldr = s.ldr ∧
      Noticed (engineNode e) s t ∧ t.engine e = { s.engine e with power := .on, hurdle := .opened } ∧
      ∀ g, g ≠ e.val → t.engine g = s.engine g

end Statements

namespace Sys2Proof.Claims

open Sys2Proof.Machine

/-- A channel has latched a command at a cycle: it waits in the queue of 256 for its frame and cycle (R36, R343, R345). -/
def LatchedAs (ch : EgCh) (lc : Nat) (s t : State) (action : Nat) (words : List Dword) (run : Nat) (held : Option (List Dword)) :
    Prop :=
  let delay := fld (s.regR (egCfgReg ch)) 20 13
  let d := match ch with
    | .pins g => s.rf .pgTime g 29 0
    | .lane l k => s.rf .egTime l 29 0 k
  let pulse := match ch with
    | .pins g => (bit (s.reg .pgCfg g) 12, s.rf .pgWidth g 15 0)
    | .lane _ _ => (false, 0)
  let q := (s.egress ch).queue ++
    [⟨delay, if delay = 0 ∧ d ≤ lc then lc + 1 else d, action, words, run, s.frame.epoch, pulse.1, pulse.2⟩]
  t.egress ch = ⟨q.drop (q.length - 256), held, run, true⟩

/-- The bytes of an ACTUATE message before its CRC (R358, R377). -/
def actuateBytes (stream : Nat) (epoch : BitVec 48) (k : Nat) (x : EgCmd) : List Byte :=
  [2, 0] ++ leBytes 2 stream ++ leBytes 6 epoch.toNat ++ leBytes 4 0 ++ leBytes 2 (8 + 8 * x.words.length) ++
    leBytes 1 x.action ++ leBytes 1 k ++ leBytes 2 (min x.run 65535) ++ leBytes 4 x.epoch.toNat ++
    x.words.flatMap fun w => leBytes 8 w.toNat

end Sys2Proof.Claims

section Statements

open Sys2Proof Sys2Proof.Machine Sys2Proof.Claims

/-- R36, R37, R340, R378, R379, R436: once in a frame an enabled channel latches its pen's words when the pen is on time, no
action for a pen held out of ON, and otherwise what the late policy says: the held words below HOLDMAX, the safe words, or
nothing; the words are those that the bank holds 4 cycles before the latch. Its readings of log entry 41 are the model's choice. -/
def Obligations.EgressLatches : Prop :=
  ∀ (ch : EgCh) (s : State) (p : Pen), s.ldr.inForce.isSome → s.frame.ticked = true → s.frame.hold = false →
    s.edge.halted = false → bit (s.regR (egCfgReg ch)) 31 = true → (s.egress ch).latched = false → s.egLoading ch = false →
    s.penAt (fld (s.regR (egCfgReg ch)) 7 0) = some p →
    Goes (exec (.egressLatch ch) s) fun t =>
      let w := s.regR (egCfgReg ch)
      let e := s.egress ch
      let lc := s.latchCycle (fld w 7 0)
      t.arr = s.arr ∧ t.mem = s.mem ∧ t.eng = s.eng ∧ t.ldr = s.ldr ∧ t.hub = s.hub ∧
      let u := advanceTo lc s
      PassedTo lc s u ∧
        (s.penHeld p = false → s.penOnTime p = true → s.frame.cycle + 4 ≤ lc → ∀ b, egressBank s (commandWords s ch).1 = some b →
          (∀ i < (commandWords s ch).2.2, s.eccOf b ((commandWords s ch).2.1 + i) = .good) →
          let l := (List.range (commandWords s ch).2.2).map fun i => wordAt s b ((commandWords s ch).2.1 + i)
          LatchedAs ch lc s t 1 l 0 (some l)) ∧
        (s.penHeld p = true → s.replacing p.cfg.first = false → LatchedAs ch lc s t 0 [] e.run e.held) ∧
        (s.penHeld p = false → s.penOnTime p = true → ∀ l, (ownWords ch u).1 = some l →
          LatchedAs ch lc s t 1 l 0 (some l)) ∧
        ((s.penHeld p = false ∨ s.replacing p.cfg.first = true) → s.penOnTime p = false →
          (∀ l, fld w 30 29 = 0 → e.held = some l → e.run + 1 < fld w 28 21 → LatchedAs ch lc s t 3 l (e.run + 1) e.held) ∧
          ((fld w 30 29 = 1 ∨ (fld w 30 29 = 0 ∧ (e.held = none ∨ fld w 28 21 ≤ e.run + 1))) →
            match (safeWords ch u).1 with
            | some l => LatchedAs ch lc s t 2 l (e.run + 1) e.held
            | none => LatchedAs ch lc s t 4 [] (e.run + 1) e.held) ∧
          (2 ≤ fld w 30 29 → LatchedAs ch lc s t 0 [] (e.run + 1) e.held))

/-- R342 to R345, R377, R380: at its cycle a pin group emits the command that is due: its pins take their bits from the next cycle
on, in PULSE mode only ones and for the width the command was latched with; a lane channel sends its ACTUATE message, after those of
the lane's lower channels due in that cycle; a pulse ends when its timer does. The form of its checksum rests on log entry 11, the model's
choice. -/
def Obligations.Emissions : Prop :=
  ∀ s : State,
    (∀ (g : Fin 16) (x : EgCmd), dueCommand (s.egress (.pins g)).queue = some x → Goes (exec (.emission g) s) fun t =>
      ∃ u, PassedTo x.cycle s u ∧ t.frame = u.frame ∧ t.mem = s.mem ∧ t.arr = s.arr ∧ t.out = s.out ∧ RegsKept [.pgLast] s t ∧
        (t.egress (.pins g)).queue = (s.egress (.pins g)).queue.filter (fun y => !(y.left == 0 && y.cycle == x.cycle)) ∧
        t.edge.on = u.edge.on ∧
        (bit (s.reg .pgCfg g) 31 = false → t.edge.onNext = s.edge.onNext ∧ t.reg .pgLast g = s.reg .pgLast g) ∧
        (bit (s.reg .pgCfg g) 31 = true → t.reg .pgLast g = (x.words.headD 0).setWidth 32 ∧
          ∀ p < 192,
            let mine := fld (s.reg .pinOut p) 15 14 == 1 && fld (s.reg .pinOut p) 11 8 == g.val
            let b := (x.words.headD 0).getLsbD (fld (s.reg .pinOut p) 5 0)
            bit t.edge.onNext p = (if mine ∧ ¬ (x.pulse ∧ ¬ b) then b else bit s.edge.onNext p) ∧
            (mine = true → x.pulse = true → b = true →
              Store.get t.edge.timers none p = some (u.frame.time + 1 + 1000 * x.width)) ∧
            (mine = true → x.pulse = false → Store.get t.edge.timers none p = none))) ∧
    (∀ (l : Fin 32) (k : Fin 4) (x : EgCmd), dueCommand (s.egress (.lane l k)).queue = some x →
      Goes (exec (.actuate l k) s) fun t =>
        ∃ u, PassedTo x.cycle s u ∧ t = { u with lanes := t.lanes, out := t.out } ∧
        let due := fun j : Fin 4 => j ≤ k ∧ ∃ y, dueCommand (s.egress (.lane l j)).queue = some y ∧ y.cycle = x.cycle
        (∀ c, (∀ j, due j → c ≠ .lane l j) → t.egress c = s.egress c) ∧
        (∀ j, due j → (t.egress (.lane l j)).queue =
          (s.egress (.lane l j)).queue.filter (fun y => !(y.left == 0 && y.cycle == x.cycle))) ∧
        t.out = s.out ++ (List.finRange 4).flatMap fun j => match dueCommand (s.egress (.lane l j)).queue with
          | none => []
          | some y =>
            if j ≤ k ∧ y.cycle = x.cycle ∧ s.linkLane l = true ∧ bit (s.reg .egCfg l j) 31 = true ∧ (s.lane l).loading = false then
              let m := actuateBytes (s.rf .egAux l 31 16 j) s.frame.epoch j y
              [.lane l (m ++ leBytes 4 (crc32c m))] else []) ∧
    ∀ (p : Fin 192) (d : Nat), Store.get s.edge.timers none p.val = some d → Goes (exec (.pulseTimerExpiry p) s) fun t =>
      ∃ u, PassedUntil d s u ∧ bit t.edge.on p = false ∧ bit t.edge.onNext p = false ∧
        (∀ q < 192, q ≠ p.val → bit t.edge.on q = bit u.edge.on q ∧ bit t.edge.onNext q = bit s.edge.onNext q) ∧
        Store.get t.edge.timers none p.val = none ∧
        t = { u with edge := { u.edge with on := t.edge.on, onNext := t.edge.onNext, timers := t.edge.timers } }

/-- R332 to R334, R343, R346, R347, R352: an outside level shows at a pin that drives nothing, and two samples later inside; an
encoder input is accepted once it has been stable for 4 cycles; the encoder counts what it accepted in quadrature, reports a double
change, and its divider keeps its remainder; a lost reference is noted once. Its readings of log entries 39, 40 and 93 are the model's
choice. -/
def Obligations.PinsAndEncoders : Prop :=
  ∀ s : State,
    (∀ (p : Fin 192) (level : Bool), Goes (exec (.pinInput p level) s) fun t =>
      t = { s with edge := { s.edge with pad := t.edge.pad, outside := t.edge.outside } } ∧
      (∀ k, s.pinDrive p = .off k → t.padBit p = level) ∧ (∀ v, s.pinDrive p = .drive v → t.padBit p = v) ∧
      ∀ q < 192, q ≠ p.val → t.padBit q = s.padBit q) ∧
    (s.pending = [] → s.hub.supply ≠ .off → Goes (step s) fun t =>
      t.edge.inp = s.edge.samp ∧ (∀ p < 192, bit t.edge.samp p = s.padBit p) ∧ t.edge.on = s.edge.onNext ∧
      ∀ i : Fin 4, bit (s.reg .encCfg i) 31 = true →
        let e := s.enc i
        let a := s.segment 0 (224 + s.rf .encCfg i 27 23)
        let b := s.segment 0 (224 + s.rf .encCfg i 22 18)
        let x := e.seen.getLastD (e.a, e.b)
        (a = x.1 → b = x.2 → (t.enc i).seen = e.seen) ∧
        (a ≠ x.1 → e.na < 3 → b = x.2 → (t.enc i).seen = e.seen ∧ (t.enc i).na = e.na + 1) ∧
        (a ≠ x.1 → e.na = 3 → b = x.2 → (t.enc i).seen = e.seen ++ [(a, b)])) ∧
    (∀ (i : Fin 4) (a b : Bool) (rest : List (Bool × Bool)), (s.enc i).seen = (a, b) :: rest →
      Goes (exec (.encoderCount i a b) s) fun t =>
      let e := s.enc i
      let w := s.reg .encCfg i
      let up := t.reg .encCount i = s.reg .encCount i + 1
      let down := t.reg .encCount i = s.reg .encCount i - 1
      let stays := t.reg .encCount i = s.reg .encCount i
      (t.enc i).a = a ∧ (t.enc i).b = b ∧ (t.enc i).seen = rest ∧ RegsKept [.encCount, .encStat] s t ∧ OthersKept .encCount i s t ∧
      t = { s with regs := t.regs, evt := t.evt, edge := { s.edge with encs := t.edge.encs, strobe := t.edge.strobe } } ∧
      (bit w 31 = false → stays) ∧
      (bit w 31 = true → fld w 30 29 = 0 →
        (e.a = a → e.b = b → stays) ∧
        (e.a ≠ a → e.b ≠ b → stays ∧ bit (t.reg .encStat i) 31 = true ∧
          t.rf .encStat i 15 0 = min (s.rf .encStat i 15 0 + 1) 65535) ∧
        (e.a ≠ a → e.b = b → if (a == b) = bit w 28 then up else down) ∧
        (e.a = a → e.b ≠ b → if (a != b) = bit w 28 then up else down) ∧
        (up → ¬ stays →
          (0 < e.debt → (t.enc i).debt = e.debt - 1 ∧ (t.enc i).rem = e.rem) ∧
          (e.debt = 0 → s.rf .encCfg i 15 0 ≤ e.rem + 1 → (t.enc i).rem = 0 ∧ bit t.edge.strobe (10 + 4 * i.val) = true) ∧
          (e.debt = 0 → e.rem + 1 < s.rf .encCfg i 15 0 → (t.enc i).rem = e.rem + 1)))) ∧
    (∀ (i : Fin 4) (a b : Bool) (x : Bool × Bool) (rest : List (Bool × Bool)), (s.enc i).seen = x :: rest → x ≠ (a, b) →
      exec (.encoderCount i a b) s = .next s) ∧
    Goes (exec .refclkLost s) fun t =>
      if bit (s.reg .clkstat) 2 = true ∨ fld (s.reg .clkstat) 1 0 = 0 then t = s
      else bit (t.reg .clkstat) 2 = true ∧ t.cairn.next = (s.cairn.next + 1) % 2 ^ 32 ∧ t.arr = s.arr ∧ t.mem = s.mem ∧
        RegsKept (eventRegs ++ [.clkstat, .cairnStatus]) s t

end Statements

namespace Sys2Proof.Claims

open Sys2Proof.Machine

/-! ### The droveway and the banks -/

/-- The last thing sent is a packet with some property. -/
def LastSent (t : State) (P : Pkt → Prop) : Prop := ∃ pre r, t.out = pre ++ [.packet r] ∧ P r

/-- A response of a type from a node to a request, with its tag and epoch bit (R250). -/
def Answers (p r : Pkt) (node : Nat) (type : BitVec 5) (data : List Dword) : Prop :=
  r.type = type ∧ r.dst = p.src ∧ r.src = BitVec.ofNat 9 node ∧ r.unit = p.unit ∧ r.tag = p.tag ∧ r.fepv = p.fepv ∧
  r.fep = p.fep ∧ r.body.payload = data

/-- An ERROR response with a code, the failed packet's TYPE and WORD (R250, R267). -/
def Refuses (p r : Pkt) (node : Nat) (code : BitVec 4) : Prop :=
  r.net = .rsp ∧ r.type = 6 ∧ r.dst = p.src ∧ r.src = BitVec.ofNat 9 node ∧ r.vc = 1 ∧ r.body.err = code ∧
  r.body.payload = [BitVec.ofNat 64 (65536 * p.type.toNat + p.word.toNat)] ∧ r.tag = p.tag

/-- A packet does not stand in the queue of a port at its destination: it comes from nowhere in the mesh, or has left it. -/
def NotQueued (s : State) (p : Pkt) (port : Nat) : Prop := ∀ x ∈ s.queue p.dst.toNat p.net port, x.pkt ≠ p

/-- A request of a network and type reaches an open bank at which nothing waits, and its port is free: no own move and no quiet-step
scrub goes before it (R217, R218). -/
def AtBank (s : State) (p : Pkt) (net : Net) (type : BitVec 5) (b : Nat) : Prop :=
  p.net = net ∧ p.type = type ∧ p.dst.toNat = b ∧ b < 272 ∧ PortFree s b ∧ (s.quiet && bit (s.reg .scrub b) 0) = false ∧
  NotQueued s p 5

/-- What serving a request at a bank leaves: the array, the engines, the hub, the loader, every other bank's registers. -/
def BankOnly (s t : State) : Prop :=
  t.arr = s.arr ∧ t.eng = s.eng ∧ t.hub = s.hub ∧ t.ldr = s.ldr ∧ t.frame = s.frame ∧ t.lanes = s.lanes ∧ t.edge = s.edge ∧
  RegsKept (eventRegs ++ [.bankEccrec, .bankEcccnt, .atomcnt, .cairnStatus]) s t

/-- The bytes of a word that a mask enables come from one value, the others from another (R216). -/
def Merged (m : BitVec 8) (old new r : Dword) : Prop :=
  ∀ i < 64, r.getLsbD i = (if m.getLsbD (i / 8) then new else old).getLsbD i

/-- An atomic at a free port: the word gets a function of itself and the operand, the count goes up; a returning one answers with
the old word; over an uncorrectable error nothing is written (R221, R228). -/
def AtomicGives (i : Instr) (p : Pkt) (type : BitVec 5) (returns : Bool) (f : Dword → Dword → Dword) (s : State) : Prop :=
  ∀ b v, AtBank s p .req type b → p.body.payload = [v] →
    Goes (exec i s) fun t => BankOnly s t ∧
      let w := p.word.toNat
      if s.eccOf b w = .double then
        t.mem = s.mem ∧ (returns = true → LastSent t fun r => Refuses p r b 4)
      else
        wordAt t b w = f (wordAt s b w) v ∧ MemOutside s t b w 1 ∧
        t.rf .atomcnt b 31 0 = min (s.rf .atomcnt b 31 0 + 1) (2 ^ 32 - 1) ∧
        (returns = true → LastSent t fun r => r.net = .rsp ∧ Answers p r b 3 [wordAt s b w])

/-- What the node of a packet has of it: of a PLANE_OUT that its mover still reads, the rows read so far, a flit for every four of them; of
any other packet, all (R144). -/
def HasOf (s : State) (n : Nat) (p : Pkt) (x : Pkt × Nat) : Prop :=
  (∀ m ∈ (s.fold n).moves.head?, n < 272 → m.out = true → m.tag = some p.tag → p.net = .data → p.unit = 0 → p.src.toNat = n →
    x = ({ p with body := { p.body with payload := m.data } }, 1 + m.data.length / 4)) ∧
  ((∀ m ∈ (s.fold n).moves.head?, ¬ (m.out = true ∧ m.tag = some p.tag)) → x = (p, p.body.flits))

/-- A response that its requester takes releases its tag, and no other (R253); checkpoint units and DMA channels may hold it anew at
once. -/
def ReleasesTag (i : Instr) (net : Net) (type : BitVec 5) (p : Pkt) (s : State) : Prop :=
  p.net = net → p.type = type → NotQueued s p 4 →
    Goes (exec i s) fun t =>
      t.mem = s.mem ∧ t.hub = s.hub ∧ t.ldr = s.ldr ∧ t.frame = s.frame ∧
      (takesResponse p.dst.toNat p s = true → oldEpoch s p = false → p.unit ≠ 2 → p.unit ≠ 6 →
        t.tag p.tag = none ∧ ∀ g, g ≠ p.tag → t.tag g = s.tag g) ∧
      (takesResponse p.dst.toNat p s = true → oldEpoch s p = true →
        t.dw.tags = s.dw.tags ∧ t.arr = s.arr ∧ t.rf .stalecnt 0 31 0 = min (s.rf .stalecnt 0 31 0 + 1) (2 ^ 32 - 1)) ∧
      (takesResponse p.dst.toNat p s = false → p.dst.toNat < 288 →
        t.dw.tags = s.dw.tags ∧ t.arr = s.arr ∧
        t.rf .nodeErrcnt1 p.dst.toNat 15 0 = min (s.rf .nodeErrcnt1 p.dst.toNat 15 0 + 1) 65535)

end Sys2Proof.Claims

section Statements

open Sys2Proof Sys2Proof.Machine Sys2Proof.Claims

/-- R216, R228, R249, R271: at a free port of an open bank a READ answers with the words it names, a WRITE1 writes the bytes its
mask enables, a WRITEB writes its words, with an ACK where one is asked for; a word that cannot be read answers ERROR ECC, to the
host all ones; at a closed bank the answer is ISOLATED. Its readings of log entries 72, 105 and 116 are the model's choice. -/
def Obligations.BankReadsAndWrites : Prop :=
  ∀ (p : Pkt) (same : Bool) (s : State) (b : Nat),
    let w := p.word.toNat
    (AtBank s p .req 1 b → oldEpoch s p = false →
      Goes (exec (.read p false same) s) fun t => BankOnly s t ∧ t.mem = s.mem ∧
        ((∀ k ≤ p.len.toNat, s.eccOf b (w + k) ≠ .double) → LastSent t fun r =>
          r.net = (if p.len = 0 then .rsp else .data) ∧
          Answers p r b (if p.len = 0 then 2 else 0x12) ((List.range (p.len.toNat + 1)).map fun k => wordAt s b (w + k))) ∧
        (p.unit = 6 → LastSent t fun r => Answers p r b (if p.len = 0 then 2 else 0x12) ((List.range (p.len.toNat + 1)).map fun k =>
          if s.eccOf b (w + k) = .double then BitVec.allOnes 64 else wordAt s b (w + k))) ∧
        (p.unit ≠ 6 → (∃ k ≤ p.len.toNat, s.eccOf b (w + k) = .double) → LastSent t fun r => Refuses p r b 4)) ∧
    (∀ v, AtBank s p .req 2 b → p.body.payload = [v] →
      Goes (exec (.write1 p false same) s) fun t => BankOnly s t ∧ MemOutside s t b w 1 ∧
        (p.bmask = 0xFF → wordAt t b w = v) ∧
        (p.bmask ≠ 0xFF → s.eccOf b w ≠ .double → Merged p.bmask (wordAt s b w) v (wordAt t b w)) ∧
        (p.bmask ≠ 0xFF → s.eccOf b w = .double → t.mem = s.mem) ∧
        (p.body.ackreq = true → LastSent t fun r => r.net = .rsp ∧ Answers p r b 1 [])) ∧
    (AtBank s p .data 0x11 b → p.body.payload.length = p.len.toNat + 1 → w + p.len.toNat < 65536 →
      Goes (exec (.writeb p false same) s) fun t => BankOnly s t ∧ MemOutside s t b w (p.len.toNat + 1) ∧
        (∀ k ≤ p.len.toNat, wordAt t b (w + k) = p.body.payload[k]!) ∧
        (p.body.ackreq = true → LastSent t fun r => r.net = .rsp ∧ Answers p r b 1 [])) ∧
    (p.net = .req → p.type = 1 → p.dst.toNat = b → b < 272 → s.bankShut b = true → NotQueued s p 5 →
      Goes (exec (.read p false same) s) fun t => t.mem = s.mem ∧ LastSent t fun r => Refuses p r b 1)

/-- R229: a whole-word write over an uncorrectable error stores the new word with a good code: at the bank, by WRITE1, by WRITEB
of one word, by the host through BAR2. -/
def Obligations.WordWriteOverError : Prop :=
  ∀ (p : Pkt) (same : Bool) (s : State) (b w : Nat) (v : Dword), w < 65536 → s.eccOf b w = .double →
    let stored := fun t => wordAt t b w = v ∧ t.eccOf b w = .good ∧ MemOutside s t b w 1
    stored (bankWrite b w 0xFF v s) ∧
    (p.word.toNat = w → p.body.payload = [v] → p.bmask = 0xFF → AtBank s p .req 2 b → Goes (exec (.write1 p false same) s) stored) ∧
    (p.word.toNat = w → p.body.payload = [v] → p.len = 0 → AtBank s p .data 0x11 b →
      Goes (exec (.writeb p false same) s) stored) ∧
    (b < 272 → PortFree s b → (s.quiet && bit (s.reg .scrub b) 0) = false →
      Goes (exec (.bar2Write (BitVec.ofNat 28 (wordAddr b w)) (leBytes 8 v.toNat)) s) stored)

/-- R221, R228: the four atomics of the droveway. That a swap over an uncorrectable error is no whole-word write is the model's reading of
log entry 85. -/
def Obligations.BankAtomics : Prop :=
  ∀ (p : Pkt) (same : Bool) (s : State),
    AtomicGives (.addP p false same) p 3 false (· + ·) s ∧
    AtomicGives (.addR p false same) p 4 true (· + ·) s ∧
    AtomicGives (.swapP p false same) p 5 false (fun _ v => v) s ∧
    AtomicGives (.swapR p false same) p 6 true (fun _ v => v) s

/-- R41, R144, R210 to R212, R253, R266, R268, R271: a response releases the tag of its request; the rows of a PLANE_IN come to its move,
and an acknowledged PLANE_OUT is over; an error is handled by the unit that asked; INVAL drops a line, CANCEL a waiting read, an EPOCH notice is
kept. Its readings of log entries 33 and 34 are the model's choice. -/
def Obligations.Responses : Prop :=
  ∀ (p : Pkt) (s : State),
    ReleasesTag (.ack p) .rsp 1 p s ∧ ReleasesTag (.rdata p) .rsp 2 p s ∧ ReleasesTag (.rdatab p) .data 0x12 p s ∧
    ReleasesTag (.oldval p) .rsp 3 p s ∧ ReleasesTag (.regdata p) .rsp 5 p s ∧
    (∀ (pf : Fin 272) (h : HeldTag) (m : Move) (rest : List Move), p.net = .data → p.type = 0x12 → p.unit = 0 →
      p.dst.toNat = pf.val → (s.fold pf).hurdle = .opened → oldEpoch s p = false → s.tag p.tag = some h → h.cancelled = false →
      NotQueued s p 4 → (s.fold pf).moves = m :: rest → m.out = false → m.tag = some p.tag →
      Goes (exec (.rdatab p) s) fun t =>
        (t.fold pf).moves = { m with data := (List.range 64).map fun y => p.body.payload.getD y 0 } :: rest ∧ SamePes s t ∧
        SamePlanes s t) ∧
    (∀ (pf : Fin 272) (h : HeldTag) (m : Move) (rest : List Move), p.net = .rsp → p.type = 1 → p.unit = 0 →
      p.dst.toNat = pf.val → (s.fold pf).hurdle = .opened → oldEpoch s p = false → s.tag p.tag = some h → h.cancelled = false →
      NotQueued s p 4 → (s.fold pf).moves = m :: rest → m.out = true → m.tag = some p.tag →
      Goes (exec (.ack p) s) fun t => MovesLeft t pf rest ∧ SamePes s t ∧ SamePlanes s t) ∧
    (∀ (pos : Nat) (h : HeldTag), p.net = .rsp → p.type = 6 → oldEpoch s p = false → s.tag p.tag = some h → h.cancelled = false →
      NotQueued s p 4 → Goes (exec (.error p pos) s) fun t =>
        (p.tag ≠ noTag → takesResponse p.dst.toNat p s = true → p.unit ≠ 2 → p.unit ≠ 6 → t.tag p.tag = none) ∧
        (∀ (pf : Fin 272) (n : Pen), p.dst.toNat = pf.val → (s.fold pf).hurdle = .opened → s.penOfFold pf = some n →
          (p.unit = 0 ∨ p.unit = 1) → (PenThen t n.cfg.first fun m => m.faulted = true) ∧
            MovesLeft t pf (if p.unit = 0 ∧ (movedBy s pf p.tag).isSome = true then (s.fold pf).moves.drop 1
              else (s.fold pf).moves))) ∧
    (∀ n : Fin 16, p.net = .snp → p.type = 1 → p.dst.toNat = 272 + n.val → NotQueued s p 4 → Goes (exec (.inval p) s) fun t =>
      let line := p.src.toNat * 8192 + p.body.line.toNat
      let first := 8 * (n.val / 4) + (if n.val % 4 = 2 then 4 else 0)
      t.mem = s.mem ∧ t.arr = s.arr ∧
      (∀ j < 4, bit p.body.mask j = true → (s.engine (first + j)).hurdle = .opened →
        cachedLine (t.engine (first + j)) line = none) ∧
      (∀ e, (∀ j < 4, bit p.body.mask j = true → e ≠ first + j) → t.engine e = s.engine e)) ∧
    (p.net = .snp → p.type = 2 → p.dst.toNat < 272 → s.bankShut p.dst.toNat = false → NotQueued s p 5 → Goes (exec (.cancel p) s) fun t =>
      t.mem = s.mem ∧ t.arr = s.arr ∧ t.regs = s.regs ∧
      (t.bank p.dst.toNat).waiting = (s.bank p.dst.toNat).waiting.filter
        (fun x => !(x.pkt.net == .req && x.pkt.type == 1 && x.pkt.tag == p.tag))) ∧
    ∀ low : BitVec 16, p.net = .snp → p.type = 3 → p.dst.toNat < 288 → NotQueued s p 4 → Goes (exec (.epochNotice p low) s) fun t =>
      Store.get t.dw.notices none p.dst.toNat = some (p.fep, p.tep, low) ∧ t = { s with dw := t.dw }

/-- R245, R246, R252, R253, R259, R260, R264, R271: an injected packet that is malformed is dropped and reported, the hub's at ST0; a
good one that waits for a response holds its tag; at a router it joins the queue of the port its route gives, in the die first along X, a
PLANE_OUT's with the rows that its mover has read; a link carries one flit of the packet its output chose, the head to the next router's
queue; a head that has waited 256 NCLK cycles more gains urgency. Its readings of log entries 34, 53, 97, 98, 100 and 132 are the model's
choice. -/
def Obligations.Routing : Prop :=
  ∀ (n : Fin 288) (s : State),
    (∀ (inp : Fin 7) (p : Pkt), malformed p = true → Goes (exec (.routePacket n.castSucc (.inject inp p)) s) fun t =>
      t.dw.queues = s.dw.queues ∧ t.dw.tags = s.dw.tags ∧
      t.rf .nodeErrcnt0 n 31 16 = min (s.rf .nodeErrcnt0 n 31 16 + 1) 65535 ∧
      (p.net = .req ∨ p.net = .data → LastSent t fun r => Refuses p r n 3)) ∧
    (∀ (inp : Fin 7) (p : Pkt), malformed p = true → Goes (exec (.routePacket 288 (.inject inp p)) s) fun t =>
      let st := 272 + 4 * (placeOf p.dst.toNat).die
      t.rf .nodeErrcnt0 st 31 16 = min (s.rf .nodeErrcnt0 st 31 16 + 1) 65535 ∧
      (p.net = .req ∨ p.net = .data → LastSent t fun r => Refuses p r st 3)) ∧
    (∀ (inp : Fin 7) (p : Pkt), malformed p = false → ¬ (p.net = .req ∧ p.type = 3) → (tagged p = true → tagFree s p = true) →
      (s.epochsAt n).2 = s.dw.tep →
      Goes (exec (.routePacket n.castSucc (.inject inp p)) s) fun t =>
        let x := if tagged p = true then streamed s n (injected s n p) else (injected s n p, p.body.flits)
        (tagged p = true → ∃ h, t.tag p.tag = some h ∧ h.pkt = x.1 ∧ h.cancelled = false) ∧
        ∀ port, outPort s.dw.tabs n p.dst.toNat = some port →
          (port = 5 → bit s.dw.lost (bridgeOf (placeOf n).die ((n.val - 272) % 4)) = false) →
          (t.queue n p.net port).map (·.pkt) = (s.queue n p.net port).map (·.pkt) ++ [x.1] ∧
          (∀ y, (t.queue n p.net port).getLast? = some y →
            y.inp = inp.val ∧ y.since = 2 * s.frame.time ∧ y.got = x.2 ∧ y.sent = 0) ∧
          ∀ m net q, queueKey m net q ≠ queueKey n p.net port → t.queue m net q = s.queue m net q) ∧
    (∀ p : Pkt, HasOf s n p (streamed s n p)) ∧
    (∀ dst < 288, (placeOf dst).die = (placeOf n).die → outPort s.dw.tabs n dst =
      if n.val = dst then none
      else if (placeOf n).u < (placeOf dst).u then some 1 else if (placeOf dst).u < (placeOf n).u then some 3
      else if (placeOf n).v < (placeOf dst).v then some 2 else if (placeOf dst).v < (placeOf n).v then some 0 else none) ∧
    (∀ (inp : Fin 7) (net : Net) (half : Bool) (m port : Nat) (x : Queued), feeder n inp = some (m, port) → m ≠ n.val →
      Store.get s.dw.used 0 (queueKey m net port) ≤ nclk s half → choose s m net port half = some x →
      Goes (exec (.routePacket n.castSucc (.link inp net half)) s) fun t =>
        Store.get t.dw.rot 0 (queueKey m net port) = x.inp ∧ Store.get t.dw.used 0 (queueKey m net port) = nclk s half + 1 ∧
        t.mem = s.mem ∧ t.arr = { s.arr with flight := t.arr.flight } ∧ t.dw.tags = s.dw.tags ∧
        (t.queue m net port).map (·.pkt) = (if x.sent + 1 < x.pkt.body.flits then (s.queue m net port).map (·.pkt)
          else ((s.queue m net port).erase x).map (·.pkt)) ∧
        let p := if port = 5 ∧ m < 288 then { x.pkt with leg := x.pkt.leg + 1 } else x.pkt
        ∀ q, x.sent = 0 → x.pkt.net = net → x.pkt.tep = s.dw.tep → ¬ (net = .req ∧ x.pkt.type = 3) →
          outPort s.dw.tabs n p.dst.toNat = some q → q ≠ 5 →
          (t.queue n net q).map (·.pkt) = (s.queue n net q).map (·.pkt) ++ [p]) ∧
    ∀ (net : Net) (port : Fin 7) (vc : BitVec 2), vc ≠ 0 → net ≠ .snp →
      Goes (exec (.urgIncrement n.castSucc net port vc) s) fun t =>
        t = { s with dw := { s.dw with queues := t.dw.queues } } ∧
        (t.queue n net port).map (·.pkt) = (s.queue n net port).map fun x =>
          if x.pkt.vc = vc ∧ x ∈ heads (s.queue n net port) [] ∧ x.sent = 0 ∧ x.since + 256 * (x.raised + 1) ≤ 2 * s.frame.time then
            { x.pkt with urg := if x.pkt.urg = 15 then 15 else x.pkt.urg + 1 } else x.pkt

/-- R227, R230, R270, R274: a corrected word is written back, the scrub reads word by word at a port that nothing else uses, a closing
hurdle seals, answers what waited with ISOLATED and lets its domain take the state it closes for, a lost bridge empties its queues and is
on record. Its readings of log entries 29, 31 and 72 are the model's choice. -/
def Obligations.BankUpkeepAndSeals : Prop :=
  ∀ s : State,
    (∀ (b : Fin 272) (w : Nat) (rest : List Nat), (s.bank b).writeBack = w :: rest → s.bankServes b = true →
      (s.bank b).waiting = [] → ownMove s b = false → Goes (exec (.eccWriteback b) s) fun t =>
      (t.bank b).writeBack = rest ∧ t.mem = s.mem ∧ t.regs = s.regs ∧ t.arr = s.arr ∧
      t.eccOf b w = (if s.eccOf b w = .single then .good else s.eccOf b w) ∧
      ∀ c v, ¬ (c = b.val ∧ v % 65536 = w % 65536) → c < 272 → t.eccOf c v = s.eccOf c v) ∧
    (∀ b : Fin 272, s.bankServes b = true → s.bankShut b = false → bit (s.reg .scrub b) 0 = true → (s.bank b).waiting = [] →
      ownMove s b = false → (s.bank b).writeBack = [] → (s.bank b).busy = false → Goes (exec (.patrolScrub b) s) fun t =>
        let w := s.rf .scrub b 31 16
        t.rf .scrub b 31 16 = (w + 1) % 65536 ∧ t.mem = s.mem ∧ t.ecc = s.ecc ∧ t.arr = s.arr ∧
        (s.eccOf b w = .good → t.banks = s.banks) ∧
        (s.eccOf b w = .single → w ∈ (t.bank b).writeBack ∧
          t.rf .bankEcccnt b 31 16 = min (s.rf .bankEcccnt b 31 16 + 1) 65535) ∧
        (s.eccOf b w = .double → t.rf .bankEcccnt b 15 0 = min (s.rf .bankEcccnt b 15 0 + 1) 65535 ∧
          (bit (s.reg .bankEccrec b) 31 = false → t.rf .bankEccrec b 15 0 = w ∧ t.rf .bankEccrec b 16 16 = 1))) ∧
    (∀ pf : Fin 272, (s.fold pf).hurdle = .closing → Goes (exec (.hurdleSeal (.fold pf)) s) fun t =>
      (∀ q, q ≠ pf.val → t.fold q = s.fold q) ∧ t = { s with arr := t.arr, freeCount := t.freeCount } ∧
      match (s.fold pf).goal with
      | none => t.fold pf = { s.fold pf with hurdle := .closed } ∧ SamePlanes s t ∧ SamePrograms s t
      | some g => (t.fold pf).hurdle = .closed ∧ (t.fold pf).power = g ∧ (t.fold pf).goal = none ∧ (t.fold pf).role = (s.fold pf).role ∧
          (g ≠ .off → SamePes s t ∧ SamePlanes s t ∧ SamePrograms s t)) ∧
    (∀ b : Fin 272, (s.bank b).hurdle = .closing → Goes (exec (.hurdleSeal (.bank b)) s) fun t =>
      t.bank b = { s.bank b with
        hurdle := .closed, waiting := [], busy := false
        power := if (s.bank b).power = .on ∧ (s.bank b).recorded ≠ .on then (s.bank b).recorded else (s.bank b).power } ∧
      t.mem = s.mem ∧ t.arr = { s.arr with flight := t.arr.flight } ∧
      ∀ x ∈ (s.bank b).waiting, isRequest x.pkt = true → ∃ r, .packet r ∈ t.out ∧ Refuses x.pkt r b 1) ∧
    (∀ e : Fin 32, (s.engine e).hurdle = .closing → Goes (exec (.hurdleSeal (.engine e)) s) fun t =>
      t.engine e = (if (s.engine e).power = .on ∧ (s.engine e).recorded ≠ .on then
        { s.engine e with hurdle := .closed, power := (s.engine e).recorded, queue := [], cache := [], served := [] }
        else { s.engine e with hurdle := .closed }) ∧
      (∀ g, g ≠ e.val → t.engine g = s.engine g) ∧ t.eng.mem = s.eng.mem ∧ t = { s with eng := t.eng }) ∧
    ∀ (b : Fin 8) (trained : Bool), bit s.dw.lost b = false → Goes (exec (.bridgeLost b trained) s) fun t =>
      bit t.dw.lost b = true ∧ (∀ c < 8, c ≠ b.val → bit t.dw.lost c = bit s.dw.lost c) ∧ t.dw.order = b.val :: s.dw.order ∧
      t.cairn.next = (s.cairn.next + 1) % 2 ^ 32 ∧ t.mem = s.mem ∧ t.arr = { s.arr with flight := t.arr.flight } ∧ t.dw.set = s.dw.set ∧
      ∀ d < 4, b.val ∈ stileBridges.getD d [] → (∀ net, t.queue (stileOf d b) net 5 = []) ∧
        t.rf .bridgecnt (stileOf d b) 31 16 =
          (if trained then s.rf .bridgecnt (stileOf d b) 31 16 else min (s.rf .bridgecnt (stileOf d b) 31 16 + 8) 65535)

end Statements

namespace Sys2Proof.Claims

open Sys2Proof.Machine

/-! ### The mailbox -/

/-- A mailbox command with some code is there to be run, in a good header, with its payload, in a state that serves it on its port, and no
command of the other port goes first; what it
runs on is the request `q` (R391, R394, R399, R401). -/
def Commands (m : MboxReq) (s : State) (code : Nat) (q : Req) : Prop :=
  leAt (reqHeader m s) 0 2 = code ∧ headerBad (reqHeader m s) = false ∧ served s m.svc code = true ∧
  (if m.svc = true then m.hdr.length = 16 ∧ m.payload.length = leAt (reqHeader m s) 4 4 ∧ s.host.svcHeld = none ∧
      (serialCode code = true → hostFirst s = true → s.frame.time / 2 ≤ s.host.mbox.since / 2)
    else s.host.mbox.busy = true ∧ (0 < leAt (reqHeader m s) 4 4 → m.readOk = true) ∧
      (serialCode code = true → s.host.mbox.after = true → s.host.svcHeld = none)) ∧
  q = ⟨m.svc, leAt (reqHeader m s) 12 4, bytesAt m.payload 0 (leAt (reqHeader m s) 4 4), m.flashOk, m.bad⟩

/-- What answering changes: the event registers, the host mailbox, the service port's response, what the block sends. -/
def MailboxOnly (u t : State) : Prop :=
  t = { u with regs := t.regs, out := t.out, evt := t.evt
               host := { u.host with mbox := t.host.mbox, svcResp := t.host.svcResp } } ∧
  RegsKept (eventRegs ++ [.rsphdr, .mboxStatus]) u t

/-- The header of a response (R392): CODE, SEQ, LENGTH, STATUS, DETAIL, PLOST, ARG. -/
def responseHeader (h : List Byte) (r : Rsp) (lost : Bool) : List Byte :=
  bytesAt h 0 4 ++ leBytes 4 r.data.length ++ leBytes 1 r.status ++ leBytes 1 r.detail ++ leBytes 1 lost.toNat ++ [0] ++
    leBytes 4 r.arg

/-- Where a response shows: on the service port in one transfer; for the host in the header registers with DONE, its payload in
host memory; and MAILBOX_RESPONSE unless the request says no (R392, R399, R401). -/
def Responds (m : MboxReq) (s t : State) (r : Rsp) : Prop :=
  let h := reqHeader m s
  let box := s.host.mbox
  let give := !r.data.isEmpty && !box.lostPayload
  (if m.svc = true then .service (responseHeader h r false) r.data ∈ t.out ∧ t.host.mbox = s.host.mbox ∧
      t.host.svcResp = some (responseHeader h r false, r.data)
    else (∀ i < 4, t.reg .rsphdr i = BitVec.ofNat 32 (leAt (responseHeader h r (give && !m.writeOk)) (4 * i) 4)) ∧
      t.rf .mboxStatus 0 30 30 = 1 ∧ t.host.svcResp = s.host.svcResp ∧ t.host.mbox = { box with busy := false, lostPayload := false } ∧
      (give = true → m.writeOk = true → .hostWrite box.rpay r.data ∈ t.out)) ∧
  (leAt h 8 1 % 2 = 0 → Pend t 21)

/-- A mailbox command run on a request answers `r` and does what `P` says; beyond that it only answers (R394). -/
def Asks (i : MboxReq → Instr) (code : Nat) (s : State) (q : Req) (r : Rsp) (P : State → Prop) : Prop :=
  ∀ m, Commands m s code q → (m.svc = false → r.data.length ≤ s.host.mbox.rmax) →
    Goes (exec (i m) s) fun t => ∃ u, P u ∧ u.host.mbox = s.host.mbox ∧ MailboxOnly u t ∧ Responds m s t r

/-- A mailbox command that answers and does nothing else. -/
def OnlyAnswers (i : MboxReq → Instr) (code : Nat) (s : State) (q : Req) (r : Rsp) : Prop := Asks i code s q r (· = s)

/-- The session a port's command finds: its slot, its time renewed (R291, R294). -/
def InSession (s : State) (q : Req) (i : Fin 3) (v : State) : Prop :=
  (∃ since, s.ldr.session = some (q.svc, i, since)) ∧
  v = { s with ldr := { s.ldr with session := some (q.svc, i, s.frame.time) } }

/-- Only slots, the session and the marks beside them have changed. -/
def OnlySlots (s t : State) : Prop :=
  t = { s with ldr := { s.ldr with slots := t.ldr.slots, session := t.ldr.session, stolen := t.ldr.stolen } }

/-- Every slot but one is as it was. -/
def SlotsBut (i : Fin 3) (s t : State) : Prop := ∀ j : Fin 3, j ≠ i → t.slot j = s.slot j

/-- A failed check is on record in CFG.ERR and CFG.ERRARG, and CONFIG_REJECT has fired (R296). -/
def Rejected (e : ImgErr) (s t : State) : Prop :=
  FiredOnly 10 s t ∧ (e.status < 256 → e.detail < 256 → e.sect < 1024 → t.rf .cfgErr 0 31 24 = e.status ∧
    t.rf .cfgErr 0 23 16 = e.detail ∧ t.rf .cfgErr 0 9 0 = e.sect) ∧ t.reg .cfgErrarg = BitVec.ofNat 32 e.arg ∧ RegsKept (eventRegs ++ [.cfgErr, .cfgErrarg]) s t ∧ t.mem = s.mem ∧ t.arr = s.arr ∧
  t.hub = s.hub

end Sys2Proof.Claims

section Statements

open Sys2Proof Sys2Proof.Machine Sys2Proof.Claims

/-- R290 to R293, R296: CONFIG_BEGIN opens a session on a slot that no activation uses and erases what was open; CONFIG_CHUNK
writes its bytes and no others, or ends the session where it completes a section with a bad CRC; CONFIG_END verifies the image
or rejects it; a command within another port's session is turned away. Its readings of log entries 35, 37 and 45 are the
model's choice. -/
def Obligations.LoadSessions : Prop :=
  ∀ (s : State) (q : Req),
    (∀ i : Fin 3, q.arg = i.val → q.data.length = 128 → s.hub.fuses.lc ≠ 3 →
      (s.ldr.session.any (·.1 != q.svc) = true → q.svc = true ∧ s.present = true) →
      s.ldr.inForce.any (·.slot == some i) = false → (s.actBusy = true → s.ldr.actSlot ≠ i) →
      (imgEnc q.data = true → s.hub.cfgKey.isSome) → q.flashOk = true →
      Asks .configBegin 0x10 s q {} fun u => OnlySlots s u ∧ u.ldr.session = some (q.svc, i, s.frame.time) ∧
        u.slot i = { st := .loading, partialImage := imgPartial q.data, enc := imgEnc q.data, length := imgLength q.data } ∧
        ∀ j : Fin 3, j ≠ i → u.slot j = if s.ldr.session.any (·.2.1 == j) then {} else s.slot j) ∧
    (q.arg < 3 → q.data.length = 128 → s.hub.fuses.lc ≠ 3 → s.ldr.session.any (·.1 != q.svc) = true → q.svc = false →
      OnlyAnswers .configBegin 0x10 s q { status := 9 }) ∧
    (∀ (i : Fin 3) (v : State), InSession s q i v →
      (q.arg % 16 = 0 → q.data ≠ [] → q.arg + q.data.length ≤ (s.slot i).length →
        (q.data.length % 16 = 0 ∨ q.arg + q.data.length = (s.slot i).length) →
        sliceOf (s.slot i).pieces q.arg q.data.length = [] → q.flashOk = true →
        (badSection (s.slot i).pieces (Store.set (s.slot i).pieces [] q.arg q.data) = none →
          Asks .configChunk 0x11 s q {} fun u => OnlySlots s u ∧ u.ldr.session = v.ldr.session ∧ SlotsBut i s u ∧
            u.slot i = { s.slot i with pieces := (u.slot i).pieces } ∧
            sliceOf (u.slot i).pieces q.arg q.data.length = q.data ∧
            ∀ a n, a + n ≤ q.arg ∨ q.arg + q.data.length ≤ a →
              sliceOf (u.slot i).pieces a n = sliceOf (s.slot i).pieces a n) ∧
        (∀ e, badSection (s.slot i).pieces (Store.set (s.slot i).pieces [] q.arg q.data) = some e →
          Asks .configChunk 0x11 s q (.check e) fun u => Rejected e s u ∧ u.ldr.session = none ∧ u.slot i = {} ∧
            SlotsBut i s u)) ∧
      (q.arg = 0 → q.data = [] → (slotBytes (s.slot i)).length = (s.slot i).length →
        (∀ img, judgeSlot v i .ended = .inr img → Asks .configEnd 0x12 s q {} fun u =>
          OnlySlots s u ∧ u.ldr.session = none ∧ SlotsBut i s u ∧
          u.slot i = { s.slot i with st := .verified, digest := imgDigest (slotBytes (s.slot i)) }) ∧
        (∀ e, judgeSlot v i .ended = .inl e → Asks .configEnd 0x12 s q (.check e) fun u =>
          Rejected e s u ∧ u.ldr.session = none ∧ u.slot i = {} ∧ SlotsBut i s u))) ∧
    (s.ldr.session.any (·.1 != q.svc) = true → q.arg = 0 → q.data = [] →
      Asks .configEnd 0x12 s q { status := 9 } fun u => OnlySlots s u ∧ u.ldr.slots = s.ldr.slots ∧
        u.ldr.session = s.ldr.session) ∧
    (s.ldr.session = none → s.ldr.stolen = false → q.arg = 0 → q.data = [] →
      OnlyAnswers .configEnd 0x12 s q { status := 0xB })

/-- R294: a session that has had no command for 300 s is closed and its slot erased. -/
def Obligations.SessionTimeout : Prop :=
  ∀ (s : State) (svc : Bool) (i : Fin 3) (since : Nat), s.ldr.session = some (svc, i, since) →
    Goes (exec .sessionTimeout s) fun t => t.ldr.session = none ∧ t.slot i = {} ∧ SlotsBut i s t ∧
      t.frame.time = max s.frame.time (since + 300000000000) ∧
      ∃ u, Passed s u ∧ t = { u with ldr := { s.ldr with slots := t.ldr.slots, session := none } }

/-- R295, R297, R301, R486: CONFIG_STORE keeps a slot, and as an autoload choice it is named in a new generation of the
settings; CONFIG_ACTIVATE checks the image again and requests its activation, or rejects it. Its readings of log entry 35 are
the model's choice. -/
def Obligations.StoreAndActivate : Prop :=
  ∀ (s : State) (q : Req) (i : Fin 3), q.arg = i.val → slotUsable (s.slot i) = true →
    (∀ n, n ≤ 2 → q.data = leBytes 1 n ++ [0, 0, 0] → q.flashOk = true →
      (0 < n → (s.slot i).partialImage = false ∧ s.hub.fuses.lc ≠ 3 ∧ s.hub.fw.st ≠ .confirming) →
      Asks .configStore 0x14 s q {} fun u => u.slot i = { s.slot i with st := .stored } ∧ SlotsBut i s u ∧
        (n = 0 → OnlySlots s u) ∧
        (0 < n → u.setting (0x20 + n) 1 = i ∧ (∀ o, o ≠ 0x20 + n → u.setting o 1 = s.setting o 1) ∧
          slotGen s.hub.settings.slots[0] < u.hub.settings.gen ∧ slotGen s.hub.settings.slots[1] < u.hub.settings.gen ∧
          u.regs = s.regs ∧ u.mem = s.mem ∧ u.arr = s.arr ∧ u.hub.fuses = s.hub.fuses)) ∧
    (∀ e : Nat, e < 2 ^ 48 → q.data = leBytes 6 e ++ [0, 0] → s.actBusy = false →
      (s.hub.fw.st = .scheduled → s.hub.fw.epoch ≠ e) → (e = 0 ∨ s.frame.epoch.toNat < e) →
      (∀ img, judgeSlot s i .activated = .inr img → Asks .configActivate 0x13 s q {} fun u =>
        u.ldr = { s.ldr with act := .pending, actSlot := i, actEpoch := e, actArmed := false, actAuto := 0 } ∧
        RegsKept [.cfgStatus] s u ∧ u.rf .cfgStatus 0 24 24 = (s.slot i).partialImage.toNat ∧
        u = { s with regs := u.regs, ldr := u.ldr }) ∧
      (∀ x, judgeSlot s i .activated = .inl x → Asks .configActivate 0x13 s q (.check x) fun u =>
        Rejected x s u ∧ u.ldr = s.ldr)) ∧
    (∀ e : Nat, e < 2 ^ 48 → q.data = leBytes 6 e ++ [0, 0] → s.actBusy = true →
      OnlyAnswers .configActivate 0x13 s q { status := 1 })

end Statements

namespace Sys2Proof.Claims

open Sys2Proof.Machine

/-! ### Activation and write groups -/

/-- The state that the first steps of a tick leave: hurdles sealed, the closing frame over, the messages due then aside, epoch and cycle of
the new frame, the lanes' new frame (R24, R50, R380, R383). -/
def newFrame (s : State) : State :=
  let s := sealAll (wipeDue (dueTime s))
  let s := { s with evt := { s.evt with batch := some (s.evt.batch.getD []) } }
  (List.range 32).foldl (fun s l => laneTick l s) (tickEpoch (lanesDue (closeFrame s)).2)

/-- A tick is due, and it is no swap of firmware. -/
def PlainTick (s : State) : Prop := s.tickDue = true ∧ s.hub.fw.st ≠ .scheduled

/-- A load puts a pen's program into a physical fold (R283, R285, R306). -/
def Programs (s : State) (l : Loading) (pf : Nat) (x : Nat × List (BitVec 14) × List Half) : Prop :=
  ∃ lf ∈ lfsOf l.img.pens, ∃ p, l.img.pens.find? (fun p => p.first ≤ lf && lf < p.first + p.count) = some p ∧
    (programsOf l.img).find? (·.1 == p.first) = some x ∧ loadPlace s l lf = some pf

/-- An image's records request no tick (R18, R284). -/
def NoHosttick (img : Image) : Prop :=
  ∀ x ∈ img.regs, ∀ g, mappedReg x.2.1 = some g → g.name = .hosttick → bit x.2.2 0 = false

/-- Pens as an image places them at T1 (R24, R48, R285, R304): those of its records, beside the pens in force that it does not replace; each
takes the recorded state that the image gives it, and owes a restore, which its first frame makes, at once where it does not wake. -/
def PlacesPens (s t : State) (l : Loading) : Prop :=
  (∀ c, (∃ p ∈ t.arr.pens, p.cfg = c) ↔ c ∈ l.img.pens ∨ ∃ p ∈ s.arr.pens, p.cfg = c ∧ c.first ∉ l.replaced) ∧
  ∀ p ∈ t.arr.pens, p.cfg ∈ l.img.pens → p.completed = false ∧
    (s.hub.nextPower = [] → p.recorded = if recorded l.img.power 0 p.cfg.first = some 0 then .off
      else if recorded l.img.power 0 p.cfg.first = some 1 then .retain else .on) ∧
    (p.entered = false → p.restoreOwed = true) ∧
    (p.entered = true → p.restored = true ∧ (p.notBefore = 0 → p.restoreOwed = false))

/-- The checkpoint buffer that is valid at T1 for a logical fold of a pen that an image places (R308). -/
def ChoosesBuffer (s t : State) (img : Image) (lf : Nat) : Prop :=
  (s.penOf lf = none → t.validBuf1 lf = false) ∧
  ∀ o, s.penOf lf = some o →
    ((∀ c ∈ img.pens, c.first ≤ lf → lf < c.first + c.count →
        c.carried = o.cfg.carried ∧ c.cbase = o.cfg.cbase ∧ c.ckslot = o.cfg.ckslot) → img.pinit = [] →
      t.validBuf1 lf = s.validBuf1 lf) ∧
    ((∀ c ∈ img.pens, c.first ≤ lf → lf < c.first + c.count →
        ¬ (c.carried = o.cfg.carried ∧ c.cbase = o.cfg.cbase ∧ c.ckslot = o.cfg.ckslot)) → t.validBuf1 lf = false)

/-- The Cairn has taken one record. -/
def OneRecord (s t : State) : Prop := ∃ r, t.cairn.recs.getLast? = some r ∧ r.index = s.cairn.next ∧ t.cairn.next = (s.cairn.next + 1) % 2 ^ 32

end Sys2Proof.Claims

section Statements

open Sys2Proof Sys2Proof.Machine Sys2Proof.Claims

/-- R24, R48, R302 to R305, R308, R311, R420: at T0 the image is checked again; a good one starts loading and the pens it replaces take
no entry, a bad one ends the activation; loading that ends well has every program in its folds, SYS HALT and 0 above it, and leaves every
other fold's memories; loading that fails leaves a partial image's pens stopped, a full one nothing in force; at T1 one that is ready
takes effect: its pens and schedule are in force, each logical fold on its fold with the buffer of R308, and owe the restore that their
first frame makes; a halted module loads nothing. R311, R418: on entry to READY the first autoload choice that checks is requested at the
next tick it can be; a choice that fails leaves a record, and when none is left CONFIG_REJECT fires. Its readings of log entries 51, 55,
67 and 108 are the model's choice. -/
def Obligations.ActivationAndAutoload : Prop :=
  (∀ s : State,
    (PlainTick s → s.ldr.act = .pending → s.ldr.actArmed = true → s.ldr.load = none → s.ldr.actEpoch ≤ s.frame.epoch.toNat + 1 →
      s.ldr.actEpoch ≤ (newFrame s).frame.epoch.toNat →
      (∀ img, judgeSlot (newFrame s) s.ldr.actSlot .activated = .inr img → Goes (exec .activationT0 s) fun t =>
        t.ldr.act = .loading ∧ (t.ldr.load.map fun l => (l.img, l.complete)) = some (img, false) ∧
        ∀ p ∈ t.arr.pens, p.cfg.first ∈ replacedPens (newFrame s) img → p.entered = false ∧ p.run = false) ∧
      (∀ e, s.ldr.actAuto = 0 → judgeSlot (newFrame s) s.ldr.actSlot .activated = .inl e → Goes (exec .activationT0 s) fun t =>
        t.ldr.act = .idle ∧ t.ldr.load = none ∧ Pend t 10 ∧ t.reg .cfgErrarg = BitVec.ofNat 32 e.arg)) ∧
    ∀ l, s.ldr.load = some l → s.ldr.act = .loading → l.complete = false → s.mode ≠ .halted →
      (Goes (exec (.loadingDone true) s) fun t =>
        t.ldr.load = some { l with complete := true } ∧ t.ldr.act = .loading ∧ t.arr.pens = s.arr.pens ∧
        (NoHosttick l.img → t.hub = s.hub ∧ (l.img.full = true → t.regs = s.regs)) ∧
        (∀ pf x, Programs s l pf x → (∀ y, Programs s l pf y → y = x) →
          (∀ a < 16384, t.iword pf a = x.2.1.getD a haltWord) ∧ ∀ a < 4096, t.dword pf a = x.2.2.getD a 0) ∧
        ∀ pf, (∀ x, ¬ Programs s l pf x) → ∀ a, t.iword pf a = s.iword pf a ∧ t.dword pf a = s.dword pf a) ∧
      (s.ldr.actAuto = 0 → Goes (exec (.loadingDone false) s) fun t =>
        t.ldr.act = .failed ∧ t.ldr.load = none ∧ Pend t 10 ∧ t.rf .cfgErr 0 31 24 = 6 ∧ t.rf .cfgErr 0 23 16 = 3 ∧
        OneRecord s t ∧ SamePrograms s t ∧ t.mem = s.mem ∧
        t.mode = s.mode ∧
        (if l.img.full = true then t.ldr.inForce = none ∧ t.hub.wantRun = false ∧ t.arr.pens = [] ∧ t.rf .bootstat 0 24 24 = 0
          else t.ldr.inForce = s.ldr.inForce ∧ t.arr = s.arr ∧
            ∀ p, p ∈ t.ldr.stopped ↔ p ∈ s.ldr.stopped ∨ p ∈ l.replaced))) ∧
  (∀ (s : State) (l : Loading), PlainTick s → s.ldr.load = some l → s.ldr.act = .ready →
    (∀ p ∈ s.arr.pens, ∀ c ∈ l.img.pens, p.cfg.first = c.first → p.cfg.first ∈ l.replaced) →
    Goes (exec .tick s) fun t =>
      t.ldr.act = .idle ∧ t.ldr.load = none ∧ t.ldr.inForce.isSome ∧ Pend t 9 ∧ PlacesPens s t l ∧
      (∀ p ∈ t.ldr.stopped, p ∈ s.ldr.stopped ∧ p ∉ l.replaced) ∧ (∀ lf ∈ lfsOf l.img.pens, ChoosesBuffer s t l.img lf) ∧
      (l.img.full = true →
        (t.ldr.inForce.map fun f => (f.digest, f.slot, f.stages)) = some (l.digest, some s.ldr.actSlot, l.img.stages.getD []) ∧
        ∀ lf ∈ lfsOf l.img.pens, ∀ pf alt, l.failed = [] → l.img.reloc[lf]? = some (pf, alt) → pf < 272 → (s.fold pf).role ≠ .isolated →
          (∀ k ∈ lfsOf l.img.pens, k ≠ lf → (l.img.reloc[k]?).map (·.1) ≠ some pf) → t.pfOf lf = some pf)) ∧
  (∀ (s : State) (good : Bool), s.mode = .halted → exec (.loadingDone good) s = .next s) ∧
  (∀ s : State, s.phase = .ready → s.ldr.actAuto = 1 → s.actBusy = false → s.ldr.autoFails = [] →
    (autoSlot s 1 = none → autoSlot s 2 = none → Goes (exec .autoload s) fun t =>
      t = { s with ldr := { s.ldr with act := if s.ldr.act = .failed then .failed else .idle, actAuto := 0 } }) ∧
    ∀ i, autoSlot s 1 = some i → Goes (exec .autoload s) fun t => t.mem = s.mem ∧ t.arr = s.arr ∧ t.hub = s.hub ∧
      match autoErr s i with
      | none =>
        t.ldr = { s.ldr with act := .pending, actSlot := i, actEpoch := 0, actArmed := false, actAuto := 1 } ∧
        RegsKept [.cfgStatus] s t ∧ t.cairn = s.cairn
      | some e => autoSlot s 2 = none →
        t.ldr = { s.ldr with act := if s.ldr.act = .failed then .failed else .idle, actAuto := 0 } ∧ OneRecord s t ∧ Pend t 10 ∧
        t.reg .cfgErrarg = BitVec.ofNat 32 e.arg)

/-- R12, R13, R25, R28, R49, R322 to R324: arming, by the register or by the mailbox, numbers the open group and opens another; a second arm
is turned away; DISCARD empties it; at the next tick the armed group commits whole, or is rejected whole with its code: overflow, a
register of what an activation replaces, a period below the last deadline, a broken SYNC rule, and the later ones; one armed in the tick's
own cycle waits for the tick after it. Its readings of log entry 56 are the model's choice. -/
def Obligations.WriteGroups : Prop :=
  ∀ s : State,
    let armed := { s.ldr with armed := some (s.ldr.wgNext, s.ldr.wgOpen, s.ldr.wgOver), armedAt := s.frame.time, wgOpen := [], wgOver := false
                              wgNext := if s.ldr.wgNext = 65535 then 1 else s.ldr.wgNext + 1 }
    let emptied := { s.ldr with wgOpen := [], wgOver := false }
    (s.ldr.armed = none → exec .wgArm s = .next { s with ldr := armed }) ∧
    (s.ldr.armed.isSome → Goes (exec .wgArm s) fun t => t.ldr = s.ldr ∧ FiredOnly 13 s t ∧ OnlyRegs [] s t) ∧
    exec .wgDiscard s = .next { s with ldr := emptied } ∧
    (∀ q : Req, q.arg = 0 → q.data = [] → s.ldr.armed = none →
      Asks .commitArm 0x18 s q { data := leBytes 4 s.ldr.wgNext } (· = { s with ldr := armed })) ∧
    (∀ q : Req, q.arg = 0 → q.data = [] → s.ldr.armed.isSome → OnlyAnswers .commitArm 0x18 s q { status := 1 }) ∧
    (∀ q : Req, q.arg = 1 → q.data = [] →
      Asks .commitDiscard 0x18 s q { data := leBytes 2 (s.draw 16).1.toNat ++ [0, 0] } (· = { (s.draw 16).2 with ldr := emptied })) ∧
    (∀ n l x, PlainTick s → s.ldr.load = some x → s.ldr.act = .ready → x.img.full = true → s.ldr.armed = some (n, l, false) → n < 65536 →
      s.ldr.armedAt ≠ (newFrame s).frame.time →
      (∃ r ∈ l, ∃ g, mappedReg r.1 = some g ∧ g.name ∈ [RegName.seqcfg, .faultcfg, .racfg, .pinOut]) → Goes (exec .tick s) fun t =>
        t.ldr.armed = none ∧ t.rf .wgSeq 0 15 0 = n ∧ t.rf .wgStatus 0 29 28 = 2 ∧ t.rf .wgStatus 0 27 24 = 2 ∧ Pend t 11) ∧
    ∀ n l ov, PlainTick s → s.ldr.load = none → s.ldr.act = .idle → s.ldr.armed = some (n, l, ov) → n < 65536 →
      (l.map (·.1)).Nodup →
      (s.ldr.armedAt = (newFrame s).frame.time → Goes (exec .tick s) fun t =>
        t.ldr.armed = s.ldr.armed ∧ t.rf .wgSeq 0 15 0 = s.rf .wgSeq 0 15 0) ∧
      (s.ldr.armedAt ≠ (newFrame s).frame.time → Goes (exec .tick s) fun t => t.ldr.armed = none ∧ t.rf .wgSeq 0 15 0 = n ∧
        (ov = true → t.rf .wgStatus 0 29 28 = 2 ∧ t.rf .wgStatus 0 27 24 = 1) ∧
        (∀ w st, ov = false → l = [(0x404, w)] → s.stages.getLast? = some st → fld w 30 0 < st.deadline + 1024 →
          t.rf .wgStatus 0 29 28 = 2 ∧ t.rf .wgStatus 0 27 24 = 3 ∧ t.reg .period = s.reg .period) ∧
        (∀ w, ov = false → l = [(0x40C, w)] → (∀ st ∈ s.stages, st.deadline + 1024 ≤ s.period) →
          (fld w 7 4 < fld w 3 0 ∨ (fld w 3 0 = 0 ↔ s.rf .tickcfg 0 2 0 = 4)) →
          t.rf .wgStatus 0 29 28 = 2 ∧ t.rf .wgStatus 0 27 24 = 4 ∧ t.reg .synccfg = s.reg .synccfg) ∧
        (groupCheck ov none l (newFrame s) ≠ 0 → t.rf .wgStatus 0 29 28 = 2 ∧ Pend t 11 ∧
          t.rf .wgStatus 0 27 24 = groupCheck ov none l (newFrame s) ∧
          ∀ r ∈ l, ∀ g, mappedReg r.1 = some g → g.name.row.maskOf (· == .ws) &&& t.regR g = g.name.row.maskOf (· == .ws) &&& s.regR g) ∧
        (groupCheck ov none l (newFrame s) = 0 → t.rf .wgStatus 0 29 28 = (if l = [] then 3 else 1) ∧
          ∀ r ∈ l, ∀ g, mappedReg r.1 = some g →
            g.name.row.maskOf (· == .ws) &&& t.regR g = g.name.row.maskOf (· == .ws) &&& r.2))

end Statements

namespace Sys2Proof.Claims

open Sys2Proof.Machine

/-! ### BAR0 -/

/-- Every block of BAR0 answers (R415, R432). -/
def Awake (s : State) : Prop := s.mode = .ready ∨ s.mode = .run ∨ s.mode = .shed

/-- An address is that of a register whose block answers (R6, R389, R415). -/
def Reaches (s : State) (a : Nat) (g : Reg) : Prop := mappedReg a = some g ∧ a % 4 = 0 ∧ blockHidden s a = false

/-- The registers a write of which does more than store bits. -/
def acting : List RegName :=
  [.hosttick, .wgCtrl, .seg, .doorbell, .ringcfg, .ringbaseLo, .dmaBaseLo, .rxbaseLo, .txbaseLo, .dmaCtrl, .rxcfg, .txcfg, .msixCtrl,
   .cairnAck, .cairnWinsel, .probectl, .ptprate, .ptpstepLo]

/-- What a bit of a field becomes when 1 or 0 is written to it (R7). -/
def bitAfter (c : RClass) (old new : Bool) : Bool :=
  match c with
  | .ro => old
  | .ws => old
  | .w1c => old && !new
  | .rw => new
  | .wl => new
  | .wx => new

/-- A write is turned away: WRITE_REJECT fires and no register keeps any of it (R9). -/
def TurnedAway (s t : State) : Prop := FiredOnly 13 s t ∧ OnlyRegs [] s t

/-- Every element of a register but one is as it was, for a register with two indexes. -/
def CellsKept (n : RegName) (i : Nat) (s t : State) : Prop :=
  ∀ k < n.row.icount, k ≠ i → ∀ j < n.row.jcount, t.reg n k j = s.reg n k j

end Sys2Proof.Claims

section Statements

open Sys2Proof Sys2Proof.Machine Sys2Proof.Claims

/-- R6, R7, R9, R11, R320, R321, R389: a 32-bit write gives each bit of the register what its field's class says, but for a bit that the
hardware has set in the same cycle, and changes nothing else; WS fields join the open group, which holds 1,024 registers; a reserved
value, a WX field of a running region, an unmapped address or another size is turned away whole; 64 bits are two writes, the lower
address first. -/
def Obligations.RegisterWrites : Prop :=
  ∀ (a : BitVec 26) (l : List Byte) (s : State),
    let w := BitVec.ofNat 32 (leNat l)
    (∀ g, Reaches s a.toNat g → l.length = 4 →
      (valueOk g w = false → Goes (exec (.registerWrite a l) s) (TurnedAway s)) ∧
      (g.name.row.maskOf (· == .wx) ≠ 0 → s.regionRuns (regionOf g) = true → Goes (exec (.registerWrite a l) s) (TurnedAway s)) ∧
      (valueOk g w = true → (g.name.row.maskOf (· == .wx) = 0 ∨ s.regionRuns (regionOf g) = false) → g.name ∉ acting →
        (g.name.row.maskOf (· == .ws) = 0 → Goes (exec (.registerWrite a l) s) fun t =>
          t = { s with regs := t.regs } ∧
          (∀ f ∈ g.name.row.fields, ∀ b, f.lo ≤ b → b ≤ f.hi → bit (t.regR g) b =
            if f.cls = .w1c ∧ bit (s.setThisCycle g.name g.i) b = true then bit (s.regR g) b
            else bitAfter f.cls (bit (s.regR g) b) (bit w b)) ∧
          ∀ n, ∀ i < n.row.icount, ∀ j < n.row.jcount, (⟨n, i, j⟩ : Reg) ≠ g → t.reg n i j = s.reg n i j) ∧
        (g.name.row.maskOf (· == .ws) ≠ 0 →
          let x := (a.toNat, w &&& g.name.row.maskOf (· == .ws))
          ((putRec x s.ldr.wgOpen).length ≤ 1024 →
            exec (.registerWrite a l) s = .next { s with ldr := { s.ldr with wgOpen := putRec x s.ldr.wgOpen } }) ∧
          (1024 < (putRec x s.ldr.wgOpen).length → Goes (exec (.registerWrite a l) s) fun t =>
            TurnedAway { s with ldr := { s.ldr with wgOver := true } } t)))) ∧
    (mappedReg a.toNat = none → blockHidden s a.toNat = false → l.length = 4 → Goes (exec (.registerWrite a l) s) (TurnedAway s)) ∧
    (blockHidden s a.toNat = false → ¬ (l.length = 4 ∧ a.toNat % 4 = 0) → ¬ (l.length = 8 ∧ a.toNat % 8 = 0) →
      Goes (exec (.registerWrite a l) s) (TurnedAway s)) ∧
    (blockHidden s a.toNat = true → exec (.registerWrite a l) s = .next s) ∧
    (l.length = 8 → a.toNat % 8 = 0 → Awake s → Goes (exec (.registerWrite a (l.take 4)) s) fun u =>
      exec (.registerWrite a l) s = exec (.registerWrite (a + 4) (l.drop 4)) u)

/-- R6, R17, R277, R300, R363, R369: a read of a low half latches its high half, one of both halves answers with both, one of another size
with all ones; a step is added to the PTP clock; a write of
PROBECTL clears the count, the status and the trace; an enable of a segment that another register drives is refused. R249:
REGRD answers with what the register reads, REGWR writes it and acknowledges. Its readings of log entries 25 and 42 are the
model's choice. -/
def Obligations.ActingRegistersAndPackets : Prop :=
  (∀ s : State,
    (∀ len : Fin 9, len.val = 4 ∨ len.val = 8 → Goes (exec (.epochLoRead len) s) fun t =>
      t = { s with out := s.out ++ [.readData (leBytes len s.frame.epoch.toNat)]
                   frame := { s.frame with epochHiLatch := BitVec.ofNat 16 (s.frame.epoch.toNat / 2 ^ 32) } }) ∧
    (∀ (l : Fin 32) (len : Fin 9), len.val ≠ 4 → len.val ≠ 8 →
      ∀ i ∈ [Instr.epochLoRead len, .timerxLoRead l len, .ptptimeLoRead l len],
        exec i s = .next { s with out := s.out ++ [.readData (List.replicate len 0xFF)] }) ∧
    (∀ l : Fin 32, Awake s →
      (∀ len : Fin 9, len.val = 4 ∨ len.val = 8 →
        (Goes (exec (.timerxLoRead l len) s) fun t =>
          t.out = s.out ++ [.readData (leBytes len (s.lane l).timeRx.toNat)] ∧
          t.lane l = { s.lane l with timeHi := BitVec.ofNat 32 ((s.lane l).timeRx.toNat / 2 ^ 32) } ∧
          (∀ k, k ≠ l.val → t.lane k = s.lane k) ∧ t = { s with out := t.out, lanes := t.lanes }) ∧
        Goes (exec (.ptptimeLoRead l len) s) fun t =>
          t.out = s.out ++ [.readData (leBytes len (ptpTime s l))] ∧
          t.lane l = { s.lane l with ptpHi := BitVec.ofNat 32 (ptpTime s l / 2 ^ 32) } ∧
          (∀ k, k ≠ l.val → t.lane k = s.lane k) ∧ t = { s with out := t.out, lanes := t.lanes }) ∧
      ∀ w : Word, Goes (exec (.ptpstepLoWrite l w) s) fun t =>
        (ptpNow t l : Int) = ((ptpNow s l : Int) + signedOf 64 (addr64 w (s.reg .ptpstepHi l)) * 2 ^ 32) % 2 ^ 96 ∧
        (∀ k, k ≠ l.val → t.lane k = s.lane k) ∧ RegsKept [.ptpstepLo] s t ∧ t.reg .ptpstepLo l = w ∧
        t = { s with regs := t.regs, lanes := t.lanes }) ∧
    (∀ (n : Fin 288) (w : Word), Awake s →
      (fld w 31 30 = 3 → Goes (exec (.probectlWrite n w) s) (TurnedAway s)) ∧
      (fld w 31 30 ≠ 3 → Goes (exec (.probectlWrite n w) s) fun t =>
        t.reg .probectl n = w &&& 0xFFE00000#32 ∧ t.reg .probecnt n = 0 ∧ t.reg .probestat n = 0 ∧
        (∀ j < 256, t.reg .nodeTrace n j = 0) ∧ OthersKept .probectl n s t ∧ OthersKept .probecnt n s t ∧
        OthersKept .probestat n s t ∧ CellsKept .nodeTrace n s t ∧
        RegsKept [.probectl, .probecnt, .probestat, .nodeTrace] s t ∧ t = { s with regs := t.regs })) ∧
    ∀ (a : BitVec 26) (l : List Byte) (g : Reg), let w := BitVec.ofNat 32 (leNat l)
      Reaches s a.toNat g → g.name = .seg → l.length = 4 → valueOk g w = true →
      ((bit w 31 = false ∨ ∀ f, s.ldr.inForce = some f → ∀ x ∈ f.routing, x.seg = edgeSegIndex g.i g.j → x.drv = fld w 11 0) →
        Goes (exec (.registerWrite a l) s) fun t => t = { s with regs := t.regs } ∧ t.regR g = (w &&& 0x80000FFF#32) ∧
          ∀ i < 16, ∀ j < 256, ¬ (i = g.i ∧ j = g.j) → t.reg .seg i j = s.reg .seg i j) ∧
      (∀ f x, bit w 31 = true → s.ldr.inForce = some f → x ∈ f.routing → x.seg = edgeSegIndex g.i g.j → x.drv ≠ fld w 11 0 →
        Goes (exec (.registerWrite a l) s) fun t => bit (t.regR g) 31 = false ∧ Pend t 12 ∧ OneRecord s t ∧ t.ldr = s.ldr ∧
          t.rf .guardcnt 0 31 0 = min (s.rf .guardcnt 0 31 0 + 1) (2 ^ 32 - 1) ∧
          (bit (s.reg .cfgGuard) 31 = false → t.rf .cfgGuard 0 19 0 = edgeSegIndex g.i g.j))) ∧
  (∀ (p : Pkt) (fold : Bool) (s : State), p.net = .req → p.dst.toNat < 288 → (fold = true → p.dst.toNat < 272) → NotQueued s p 4 →
    (p.type = 8 → Goes (exec (.regrd p fold) s) fun t =>
      t.regs = s.regs ∧ t.mem = s.mem ∧ t.arr = s.arr ∧
      LastSent t fun r => r.net = .rsp ∧
        Answers p r p.dst.toNat 5 [BitVec.ofNat 64 (busRead (pktReg p fold) s).1.toNat]) ∧
    (p.type = 9 → ∀ v, p.body.payload = [v] → Goes (exec (.regwr p fold) s) fun t =>
      t.regs = (busWrite (pktReg p fold) (v.setWidth 32) s).2.regs ∧ t.mem = s.mem ∧
      LastSent t fun r => r.net = .rsp ∧ Answers p r p.dst.toNat 1 []))

end Statements

namespace Sys2Proof.Claims

open Sys2Proof.Machine

/-! ### Sensor lanes -/

/-- A message of a type reaches an enabled Filop Link lane and passes the checks of R360: length, CRC, type, flags. -/
def Passes (s : State) (l : Fin 32) (m : List Byte) (type flags : Nat) : Prop :=
  s.linkLane l = true ∧ m.length = 20 + leAt m 14 2 ∧ leAt m 14 2 ≤ 8192 ∧
  crc32c (m.take (16 + leAt m 14 2)) = leAt m (16 + leAt m 14 2) 4 ∧ leAt m 0 1 = type ∧ leAt m 1 1 < flags

/-- The payload of a message. -/
def payloadOf (m : List Byte) : List Byte := (m.drop 16).take (leAt m 14 2)

/-- An image block of a line passes the checks, of the stream that an ingesting lane takes, with its sequence, index, FIRST and
LAST (R359 to R361). -/
def Block (s : State) (l : Fin 32) (m : List Byte) (seq idx : Nat) (first last : Bool) : Prop :=
  Passes s l m 1 4 ∧ leAt m 2 2 = s.rf .ingsrc l 15 0 ∧ bit (s.reg .ingcfg l) 31 = true ∧
  leAt m 10 4 = 4096 * seq + idx ∧ idx < 4096 ∧ leAt m 1 1 = first.toNat + 2 * last.toNat

/-- Only lanes have changed, and of them only one. -/
def OnlyLane (l : Nat) (s t : State) : Prop := t = { s with lanes := t.lanes } ∧ ∀ k, k ≠ l → t.lane k = s.lane k

/-- A counter of a lane has gone up, saturating, and what else may have changed is the lane and, for a discarded line, DROP. -/
def LaneCounts (n : RegName) (l hi lo k : Nat) (s t : State) : Prop :=
  t.rf n l hi lo = min (s.rf n l hi lo + k) 65535 ∧ t.rf n l (31 - lo) (16 - lo) = s.rf n l (31 - lo) (16 - lo) ∧ RegsKept (eventRegs ++ [n]) s t ∧ OthersKept n l s t ∧
  t.mem = s.mem ∧ t.arr = s.arr ∧ t.hub = s.hub ∧ t.ldr = s.ldr ∧ t.frame = s.frame ∧ ∀ j, j ≠ l → t.lane j = s.lane j

/-- The rows of a pen that a line's pixels of one plane reach, as PE x of fold column `fx` sees them (R371, R372). -/
def turnedBit (c : Word) (t : Target) (b : List Byte) (ch bitNo fx x : Nat) : Bool :=
  let px := 64 * fx + x
  if t.x0 ≤ px ∧ px < t.x0 + t.width then
    (sampleOf c b (if bit c 29 then ch * t.width + (px - t.x0) else (px - t.x0) * fld c 26 19 + ch)).testBit bitNo
  else false

end Sys2Proof.Claims

section Statements

open Sys2Proof Sys2Proof.Machine Sys2Proof.Claims

/-- R365: a STATUS message replaces STATUSRX, its payload in the low bytes and 0 above, and STATUSINFO gives stream and length. -/
def Obligations.StatusMessages : Prop :=
  ∀ (s : State) (l : Fin 32) (m : List Byte), Passes s l m 4 1 → leAt m 14 2 ≤ 64 → Goes (exec (.status l m) s) fun t =>
    (∀ b < 64, (t.reg .statusrx l (b / 4)).extractLsb' (8 * (b % 4)) 8 = (payloadOf m).getD b 0) ∧
    t.rf .statusinfo l 31 16 = leAt m 2 2 ∧ t.rf .statusinfo l 6 0 = leAt m 14 2 ∧
    CellsKept .statusrx l s t ∧ OthersKept .statusinfo l s t ∧ RegsKept [.statusrx, .statusinfo] s t ∧ t = { s with regs := t.regs }

/-- R360, R361 to R363, R373, R374: a TIME message gives TIMERX and may request a tick; blocks in sequence build a line, one
of the right size takes the next row, or the row its gap gives, with the skipped rows counted as lost; a line of another size,
one without a buffer, a message with a bad CRC, a bad length or another stream is discarded and counted. Its readings of log
entry 14 are the model's choice. -/
def Obligations.LaneMessages : Prop :=
  ∀ (s : State) (l : Fin 32) (m : List Byte),
    let x := s.lane l
    let b := if bit (s.reg .ingcfg l) 30 then (bit s.frame.epoch 0).toNat else 0
    let put := fun (t : State) (row seq : Nat) (bytes : List Byte) =>
      t.lane l = { x with line := none, pos := some (row, seq), bufs := x.bufs ++ [⟨bytes, row, b⟩]
                          ingCount := if x.ingCount = 0xFFFF then 0xFFFF else x.ingCount + 1 }
    (Passes s l m 3 2 → leAt m 14 2 = 8 → Goes (exec (.time l m) s) fun t => ∃ u, OnlyLane l s u ∧
      u.lane l = { x with timeRx := BitVec.ofNat 64 (leAt m 16 8) } ∧
      (if leAt m 1 1 = 1 ∧ s.rf .tickcfg 0 12 8 = l then Requested 2 u t else t = u)) ∧
    (∀ seq, Block s l m seq 0 true false → x.line = none → x.bufs.length < 2 → Goes (exec (.imageBlock l m) s) fun t =>
      OnlyLane l s t ∧ t.lane l = { x with line := some ⟨seq, 0, payloadOf m⟩ }) ∧
    (∀ seq idx o, Block s l m seq (idx + 1) false false → x.line = some o → o.seq = seq → o.idx = idx →
      Goes (exec (.imageBlock l m) s) fun t =>
        OnlyLane l s t ∧ t.lane l = { x with line := some ⟨seq, idx + 1, o.bytes ++ payloadOf m⟩ }) ∧
    (∀ seq idx o, Block s l m seq (idx + 1) false true → x.line = some o → o.seq = seq → o.idx = idx → x.ingLoad = false →
      (o.bytes ++ payloadOf m).length = lineSize s l → lineSize s l ≤ 32768 →
      (x.pos = none → s.rf .ingrows l 15 0 ≠ 0 →
        Goes (exec (.imageBlock l m) s) fun t => OnlyLane l s t ∧ put t 0 seq (o.bytes ++ payloadOf m)) ∧
      (∀ r q, x.pos = some (r, q) → let g := (seq + 2 ^ 20 - q) % 2 ^ 20
        (0 < g → g < 2 ^ 19 → r + g < s.rf .ingrows l 15 0 → Goes (exec (.imageBlock l m) s) fun t =>
          LaneCounts .rxcnt1 l 15 0 (g - 1) s t ∧ put t (r + g) seq (o.bytes ++ payloadOf m)) ∧
        (0 < g → g < 2 ^ 19 → s.rf .ingrows l 15 0 ≤ r + g → Goes (exec (.imageBlock l m) s) fun t =>
          LaneCounts .rxcnt0 l 15 0 1 s t ∧ t.lane l = { x with line := none }) ∧
        (g = 0 ∨ 2 ^ 19 ≤ g → Goes (exec (.imageBlock l m) s) fun t =>
          LaneCounts .rxcnt1 l 31 16 1 s t ∧ t.lane l = { x with line := none }))) ∧
    (∀ seq idx o, Block s l m seq (idx + 1) false true → x.line = some o → o.seq = seq → o.idx = idx →
      (o.bytes ++ payloadOf m).length ≠ lineSize s l → Goes (exec (.imageBlock l m) s) fun t =>
        LaneCounts .rxcnt1 l 31 16 1 s t ∧ t.lane l = { x with line := none }) ∧
    (∀ seq last, Block s l m seq 0 true last → x.line = none → 2 ≤ x.bufs.length → Goes (exec (.imageBlock l m) s) fun t =>
      LaneCounts .rxcnt0 l 15 0 1 s t ∧ t.lane l = { x with dropFired := true } ∧
      (x.dropFired = false → Pend t (1216 + 2 * l + 1))) ∧
    (s.linkLane l = true → (m.length ≠ 20 + leAt m 14 2 ∨ 8192 < leAt m 14 2) →
      Goes (exec (.malformedMessage l m false) s) fun t => LaneCounts .rxcnt2 l 31 16 1 s t ∧ t.lane l = x) ∧
    (∀ coded, s.linkLane l = true → (coded = true ∨ (m.length = 20 + leAt m 14 2 ∧ leAt m 14 2 ≤ 8192 ∧
        crc32c (m.take (16 + leAt m 14 2)) ≠ leAt m (16 + leAt m 14 2) 4)) →
      Goes (exec (.malformedMessage l m coded) s) fun t => LaneCounts .rxcnt0 l 31 16 1 s t ∧
        t.lane l = { x with dropFired := true } ∧ (x.dropFired = false → Pend t (1216 + 2 * l + 1))) ∧
    (Passes s l m 1 4 → leAt m 2 2 ≠ s.rf .ingsrc l 15 0 → Goes (exec (.malformedMessage l m false) s) fun t =>
      LaneCounts .rxcnt2 l 15 0 1 s t ∧ t.lane l = x)

/-- R356, R371, R372, R383: the oldest accepted line leaves its buffer and each plane of the target gets one row of it, 0
beside the target's columns, and no other row changes; the link's state shows in STATUS and LINK fires once in a frame. Its
readings of log entry 83 are the model's choice. -/
def Obligations.CornerTurnAndLink : Prop :=
  ∀ (s : State) (l : Fin 32),
    (∀ x rest, (s.lane l).bufs = x :: rest → (s.lane l).ingLoad = true → Goes (exec (.cornerTurn l) s) fun t =>
      OnlyLane l s t ∧ t.lane l = { s.lane l with bufs := rest }) ∧
    (∀ x rest g p, (s.lane l).bufs = x :: rest → (s.lane l).ingLoad = false → s.ingestTarget l = some g →
      s.penAt g.pen = some p → g.y0 + x.row < 64 * (p.cfg.count / p.cfg.width) →
      let c := s.reg .ingcfg l
      let keep := fld c 13 9
      let base := if x.buf = 1 then s.rf .ingplanes l 21 11 else s.rf .ingplanes l 10 0
      base + fld c 26 19 * keep ≤ 2048 → 0 < keep →
      Goes (exec (.cornerTurn l) s) fun t =>
        t.lane l = { s.lane l with bufs := rest } ∧ (∀ k, k ≠ l.val → t.lane k = s.lane k) ∧ t.regs = s.regs ∧ t.mem = s.mem ∧
        (∀ f ∈ targetFolds s p.cfg g (g.y0 + x.row), (s.fold f.2).power = .on → ∀ ch < fld c 26 19, ∀ k < keep, ∀ i < 64,
          (rowOf (t.plane f.2 (base + ch * keep + k)) ((g.y0 + x.row) % 64)).getLsbD i =
            turnedBit c g x.bytes ch (fld c 18 14 - keep + k) f.1 i) ∧
        ∀ pf a, a < 2048 → ∀ y < 64,
          ¬ ((∃ f ∈ targetFolds s p.cfg g (g.y0 + x.row), f.2 = pf ∧ (s.fold pf).power = .on) ∧ base ≤ a ∧
            a < base + fld c 26 19 * keep ∧ y = (g.y0 + x.row) % 64) →
          rowOf (t.plane pf a) y = rowOf (s.plane pf a) y) ∧
    (∀ up : Bool, (up = bit (s.reg .laneStatus l) 31 ∨
        (up = true ∧ (bit (s.reg .laneCfg l) 31 = false ∨ (s.lane l).failed = true))) →
      exec (.link l up) s = .next s) ∧
    ∀ up : Bool, up ≠ bit (s.reg .laneStatus l) 31 → (up = true → bit (s.reg .laneCfg l) 31 = true ∧ (s.lane l).failed = false) →
      Goes (exec (.link l up) s) fun t =>
        bit (t.reg .laneStatus l) 31 = up ∧ RegsKept (eventRegs ++ [.laneStatus]) s t ∧ OthersKept .laneStatus l s t ∧
        t.lane l = { s.lane l with linkFired := true } ∧ (∀ k, k ≠ l.val → t.lane k = s.lane k) ∧ t.mem = s.mem ∧
        ((s.lane l).linkFired = false → Pend t (1216 + 2 * l)) ∧ ((s.lane l).linkFired = true → t.evt = s.evt ∧ t.out = s.out)

/-- R366 to R369, R383, R387, R409: a frame with a bad FCS, a pause frame, a frame for another address; a frame for the host goes to
the buffer at RXHEAD, or is counted where there is none; a GVSP leader opens its block; the descriptor at TXHEAD is sent; enabling a
ring captures it and sets its pointers to 0. Its readings of log entries 12, 13, 15, 32 and 92 are the model's choice. -/
def Obligations.LaneFrames : Prop :=
  ∀ (s : State) (l : Fin 32) (bytes desc : List Byte),
    let f := ethFrame bytes
    let ok := s.etherLane l = true ∧ 64 ≤ bytes.length ∧ bytes.length ≤ 9216 ∧
      ethCrc (bytes.take (bytes.length - 4)) = leAt bytes (bytes.length - 4) 4
    (s.etherLane l = true → 64 ≤ bytes.length → bytes.length ≤ 9216 →
      ethCrc (bytes.take (bytes.length - 4)) ≠ leAt bytes (bytes.length - 4) 4 →
      Goes (exec (.receivedFrame l bytes desc) s) fun t => LaneCounts .rxcnt0 l 31 16 1 s t ∧
        t.lane l = { s.lane l with dropFired := true }) ∧
    (ok → flowControl f.bytes = true → exec (.receivedFrame l bytes desc) s = .next s) ∧
    (ok → flowControl f.bytes = false → addressMatch s l f.bytes = false → Goes (exec (.receivedFrame l bytes desc) s) fun t =>
      LaneCounts .rxcnt2 l 15 0 1 s t ∧ t.lane l = s.lane l) ∧
    (ok → flowControl f.bytes = false → beAt f.bytes 12 2 ≠ 0x88F7 → addressMatch s l f.bytes = true → udpOf f.bytes = none →
      ((s.nic l).rx.on = true → s.inD3 = false → s.edge.halted = false →
        s.rf .rxhead l 11 0 ≠ s.rf .rxtail l 11 0 % (s.nic l).rx.size → f.bytes.length ≤ leAt desc 8 2 →
        (s.nic l).rx.size ≤ 4096 → 0 < (s.nic l).rx.size →
        Goes (exec (.receivedFrame l bytes desc) s) fun t =>
          .hostWrite (leAt desc 0 8) f.bytes ∈ t.out ∧
          t.rf .rxhead l 11 0 = (s.rf .rxhead l 11 0 + 1) % (s.nic l).rx.size ∧
          RegsKept (eventRegs ++ [.rxhead]) s t ∧ OthersKept .rxhead l s t ∧ t.lanes = s.lanes ∧ t.mem = s.mem ∧ t.arr = s.arr) ∧
      ((s.nic l).rx.on = false → Goes (exec (.receivedFrame l bytes desc) s) fun t =>
        t.reg .rxdrop l = BitVec.ofNat 32 (min ((s.reg .rxdrop l).toNat + 1) (2 ^ 32 - 1)) ∧ RegsKept [.rxdrop] s t ∧
        OthersKept .rxdrop l s t ∧ t = { s with regs := t.regs })) ∧
    (∀ port b, ok → addressMatch s l f.bytes = true → udpOf f.bytes = some (port, b) → beAt f.bytes 12 2 = 0x0800 → port ≠ 319 →
      port = s.rf .ingsrc l 15 0 → bit (s.reg .ingcfg l) 31 = true → (s.lane l).gvsp = none → leAt b 4 1 = 1 →
      beAt b 10 2 = 1 → bit (s.reg .ingcfg l) 29 = false → beAt b 24 4 = s.rf .inggeom l 15 0 → beAt b 40 4 = 0 →
      pixelFormat (beAt b 20 4) =
        some (fld (s.reg .ingcfg l) 26 19, fld (s.reg .ingcfg l) 18 14, bit (s.reg .ingcfg l) 28) →
      Goes (exec (.receivedFrame l bytes desc) s) fun t => OnlyLane l s t ∧
        t.lane l = { s.lane l with gvsp := some { block := beAt b 2 2, taken := true, rows := beAt b 28 4, next := 1 } }) ∧
    (s.etherLane l = true → (s.nic l).tx.on = true → s.inD3 = false → s.edge.halted = false → (s.lane l).loading = false →
      s.rf .txhead l 11 0 ≠ s.rf .txtail l 11 0 % (s.nic l).tx.size → 0 < (s.nic l).tx.size → (s.nic l).tx.size ≤ 4096 →
      Goes (exec (.transmitDescriptor l desc bytes) s) fun t =>
        let b := bytesAt bytes 0 (leAt desc 8 2)
        .lane l (b ++ leBytes 4 (ethCrc b)) ∈ t.out ∧
        t.rf .txhead l 11 0 = (s.rf .txhead l 11 0 + 1) % (s.nic l).tx.size ∧
        RegsKept (eventRegs ++ [.txhead]) s t ∧ OthersKept .txhead l s t ∧ t.lanes = s.lanes ∧ t.mem = s.mem ∧ t.arr = s.arr) ∧
    ∀ w : Word,
      (8 < fld w 11 8 → ∀ tx, Goes (exec (.nicRingEnable l tx w) s) (TurnedAway s)) ∧
      (fld w 11 8 ≤ 8 → bit w 31 = true → bit (s.reg .rxcfg l) 31 = false → Goes (exec (.nicRingEnable l false w) s) fun t =>
        (t.nic l).rx = ⟨true, addr64 (s.reg .rxbaseLo l) (s.reg .rxbaseHi l), 16 * 2 ^ fld w 11 8⟩ ∧
        (t.nic l).tx = (s.nic l).tx ∧ t.reg .rxhead l = 0 ∧ t.reg .rxtail l = 0 ∧ t.reg .rxcfg l = w &&& 0x80000F3F#32 ∧
        RegsKept [.rxhead, .rxtail, .rxcfg] s t ∧ (∀ k, k ≠ l.val → t.nic k = s.nic k) ∧
        t = { s with regs := t.regs, host := { s.host with nic := t.host.nic } }) ∧
      (fld w 11 8 ≤ 8 → bit w 31 = true → bit (s.reg .txcfg l) 31 = false → Goes (exec (.nicRingEnable l true w) s) fun t =>
        (t.nic l).tx = ⟨true, addr64 (s.reg .txbaseLo l) (s.reg .txbaseHi l), 16 * 2 ^ fld w 11 8⟩ ∧
        (t.nic l).rx = (s.nic l).rx ∧ t.reg .txhead l = 0 ∧ t.reg .txtail l = 0 ∧ t.reg .txcfg l = w &&& 0x80000F3F#32 ∧
        RegsKept [.txhead, .txtail, .txcfg] s t ∧ (∀ k, k ≠ l.val → t.nic k = s.nic k)) ∧
      (fld w 11 8 ≤ 8 → bit w 31 = false → ∀ tx, Goes (exec (.nicRingEnable l tx w) s) fun t =>
        (if tx = true then (t.nic l).tx = { (s.nic l).tx with on := false } ∧ (t.nic l).rx = (s.nic l).rx
          else (t.nic l).rx = { (s.nic l).rx with on := false } ∧ (t.nic l).tx = (s.nic l).tx) ∧
        RegsKept [if tx then .txcfg else .rxcfg] s t)

end Statements

namespace Sys2Proof.Claims

open Sys2Proof.Machine

/-! ### The mailbox's other commands -/

/-- A request without argument and payload. -/
def NoArgs (q : Req) : Prop := q.arg = 0 ∧ q.data = []

/-- One record of settings is another with some bytes written from an offset on (R486). -/
def Written (old : SetRec) (o : Nat) (data : List Byte) (new : SetRec) : Prop :=
  (∀ i < data.length, new.byte (o + i) = data.getD i 0) ∧ (∀ j, j < o ∨ o + data.length ≤ j → new.byte j = old.byte j)

/-- A new generation of settings is in use; nothing but the settings has changed (R485, R486). -/
def NewGeneration (s u : State) : Prop :=
  slotGen s.hub.settings.slots[0] < u.hub.settings.gen ∧ slotGen s.hub.settings.slots[1] < u.hub.settings.gen ∧
  u.hub.settings.slots[u.hub.settings.slot] = .good (fwSetVer s.hub.fw.active) u.hub.settings.gen u.hub.settings.cur ∧
  u.hub.settings.unreadable = false ∧ u.regs = s.regs ∧ u.mem = s.mem ∧ u.arr = s.arr ∧ u.ldr = s.ldr ∧ u.hub.fuses = s.hub.fuses

/-- The POWER records of a payload (R285, R437). -/
def powerRecords (l : List Byte) : List PowRec :=
  (List.range (l.length / 4)).map fun i => powRecOf (BitVec.ofNat 32 (leAt l (4 * i) 4))

/-- The recorded states as records leave them (R437). -/
def afterRecords (l : List PowRec) (s : State) : State := l.foldl (fun s x => applyPower x s) s

/-- The state that the last record of a list gives an item, or the one it had (R437). -/
def stateFor (l : List PowRec) (kind i : Nat) (old : Power) : Power :=
  match l.reverse.find? fun r => r.kind.toNat == kind && r.index.toNat == i with
  | none => old
  | some r => if r.state = 2 then .on else if r.state = 1 then .retain else .off

/-- A tick at which nothing is activated, no group commits, no substitution waits and no fold has had a parity error. -/
def QuietTick (s : State) : Prop :=
  PlainTick s ∧ s.ldr.load = none ∧ s.ldr.act ≠ .pending ∧ s.ldr.armed = none ∧ s.hub.waiting = [] ∧ PensApart s ∧
  ∀ x ∈ s.arr.folds, (s.fold x.1).parFrame = false ∧ 0 < s.rf .faultcfg x.1 3 0

/-- A pen takes its recorded state at a tick: one that is recorded ON and is shed, or is not to run, stands in RETAIN; a fold in RETAIN wakes
toward ON, and one that leaves ON closes its hurdle (R81, R83, R270, R435, R440). -/
def TakesState (s t : State) (q : Pen) : Prop :=
  let aim := if q.recorded = .on ∧ (t.running = false ∨ q.shedNow = true) then .retain else q.recorded
  ∀ pf ∈ s.memberFolds q, (s.fold pf).role = .active →
    ((s.fold pf).power = .retain → aim = .on → (t.fold pf).power = .waking) ∧
    ((s.fold pf).power = .on → (s.fold pf).hurdle = .opened → aim = .retain ∨ aim = .off →
      (t.fold pf).power = .on ∧ (t.fold pf).hurdle = .closing ∧ (t.fold pf).goal = some aim)

/-- A POWER record is taken, on the states before and after its command (R82, R84, R234, R303, R398). -/
def Takes (before after : State) (r : PowRec) : Prop := powRefused before r = none ∧ powDark after r = false

end Sys2Proof.Claims

section Statements

open Sys2Proof Sys2Proof.Machine Sys2Proof.Claims

/-- R396, R415, R453, R486: what the commands that only tell answer; none of them changes anything else, but that a wipe whose time
has run out ends before the Cairn is read. Its readings of log entries 23, 61, 62, 77, 101 and 109 are the model's choice. -/
def Obligations.MailboxAnswers : Prop :=
  ∀ (s : State) (q : Req),
    (NoArgs q → OnlyAnswers .identify 0x01 s q
      { data := [0x56, 0x02, 0xB1, 3] ++ leBytes 4 s.fwVer.toNat ++ bytesAt s.hub.serial 0 8 ++
          [BitVec.ofNat 8 s.hub.fuses.lc, BitVec.ofNat 8 s.mode.code, BitVec.ofNat 8 q.svc.toNat,
            BitVec.ofNat 8 (s.rf .usbStatus 0 29 28)] ++ leBytes 4 s.hub.fuses.ver ++ List.replicate 40 0 }) ∧
    (¬ NoArgs q → OnlyAnswers .identify 0x01 s q { status := 3 }) ∧
    (NoArgs q → OnlyAnswers .presenceStatus 0x40 s q
      { data := [BitVec.ofNat 8 s.present.toNat, BitVec.ofNat 8 s.hub.pres.source, BitVec.ofNat 8 s.hub.fuses.lc, 0] ++
          leBytes 4 (presRemain s) ++ leBytes 4 (s.setting 0x24 2) ++ [0, 0, 0, 0] }) ∧
    (NoArgs q → ∃ data, OnlyAnswers .updateStatus 0x22 s q { data := data } ∧ data.length = 324 ∧
      leAt data 0 1 = updCode s.hub.fw.st ∧ leAt data 1 1 = updOwner s ∧
      leAt data 12 6 = (if s.hub.fw.st = .scheduled then s.hub.fw.epoch % 2 ^ 48 else 0) ∧
      (s.hub.fw.session = none → data.drop 20 = List.replicate 304 0) ∧
      ∀ x, s.hub.fw.session = some x → leAt data 4 4 = chunkCount x.length % 2 ^ 32 ∧
        leAt data 8 4 = x.chunks.length % 2 ^ 32 ∧ bytesAt data 20 48 = bytesAt x.digest 0 48 ∧
        ∀ k < 2048, (data.getD (68 + k / 8) 0).getLsbD (k % 8) = !(Store.get x.chunks [] k).isEmpty) ∧
    (NoArgs q → ∃ data, OnlyAnswers .foldMap 0x48 s q { data := data } ∧ data.length = 2112 ∧
      (s.ldr.inForce = none → ∀ lf < 256, leAt data (4 * lf) 4 = 0x3FFFF) ∧
      (∀ lf < 256, leAt data (4 * lf) 4 = mapEntry s lf % 2 ^ 32) ∧
      ∀ pf < 272, leAt data (1024 + 4 * pf) 4 / 2 ^ 30 = foldPower (s.fold pf) ∧
        leAt data (1024 + 4 * pf) 4 / 2 ^ 29 % 2 = (s.fold pf).lost.toNat ∧
        leAt data (1024 + 4 * pf) 4 / 2 ^ 28 % 2 = (s.bank pf).failed.toNat ∧ leAt data (1024 + 4 * pf) 4 % 512 = pf) ∧
    (∀ n, leAt q.data 0 4 = n → q.data.length = 4 → 0 < n → n ≤ 1023 → q.arg ≠ 0xFFFFFFFF →
      let v := wipeDue s
      let l := (v.cairn.recs.filter fun r => q.arg ≤ r.index).take n
      Asks .cairnRead 0x38 s q
        { data := leBytes 4 v.cairn.newest ++ leBytes 4 l.length ++ l.flatMap (·.bytes) } (· = v)) ∧
    (∀ n, leAt q.data 0 4 = n → q.data.length = 4 → 0 < n → n ≤ 1023 → q.arg = 0xFFFFFFFF →
      let v := wipeDue s
      let l := v.cairn.recs.drop (v.cairn.recs.length - n)
      Asks .cairnRead 0x38 s q
        { data := leBytes 4 v.cairn.newest ++ leBytes 4 l.length ++ l.flatMap (·.bytes) } (· = v)) ∧
    (∀ n, leAt q.data 0 4 = n → q.data.length = 4 → 0 < n → q.arg + n ≤ 65536 → ∃ data,
      OnlyAnswers .settingsRead 0x30 s q { data := data } ∧ data.length = n ∧
      ∀ i < n, 16 ≤ q.arg + i → (q.arg + i < 0x400 ∨ 0x4A0 ≤ q.arg + i) → data.getD i 0 = s.hub.settings.cur.byte (q.arg + i)) ∧
    ∀ n : Fin 288, q.arg = n.val → q.data = [] → ∃ data, OnlyAnswers .probeRead 0x51 s q { data := data } ∧
      data.length = 1032 ∧ leAt data 0 4 = (s.reg .probecnt n).toNat ∧ leAt data 4 4 = (s.reg .probestat n).toNat ∧
      ∀ j < 256, leAt data (8 + 4 * j) 4 = (s.reg .nodeTrace n j).toNat

/-- R58, R164, R277, R394, R395, R397, R398, R401: register access by mailbox is that of BAR0, in address order up to the first write
that is turned away; DEBUG_READ tells what an open fold holds, once its pen is in NORMAL, planes after the rows of its moves and of
HISTO; PROBE_SETUP writes a probe's registers; an unknown code is turned away; a service-port command waits for one of the host accepted
before it, and while it waits the port takes no other. Its readings of log entries 45, 76, 109 and 118 are the model's choice. -/
def Obligations.DebugAndRegisterAccess : Prop :=
  ∀ (s : State) (q : Req),
    (∀ n, leAt q.data 0 4 = n → q.data.length = 4 → 0 < n → n ≤ 256 → (∀ i < n, (busRead (q.arg + 4 * i) s).2 = s) →
      OnlyAnswers .regRead 0x60 s q
        { data := (List.range n).flatMap fun i => leBytes 4 (busRead (q.arg + 4 * i) s).1.toNat }) ∧
    (∀ (w : Word) (v : State), q.data = leBytes 4 w.toNat → v.host.mbox = s.host.mbox →
      (busWrite q.arg w s = (true, v) → Asks .regWrite 0x61 s q {} (· = v)) ∧
      (busWrite q.arg w s = (false, v) → Asks .regWrite 0x61 s q { status := 3, arg := q.arg } (· = v))) ∧
    (∀ (w x : Word) (v u : State), q.data = leBytes 4 w.toNat ++ leBytes 4 x.toNat → v.host.mbox = s.host.mbox →
      u.host.mbox = s.host.mbox →
      (busWrite q.arg w s = (false, v) → Asks .regWrite 0x61 s q { status := 3, arg := q.arg } (· = v)) ∧
      (busWrite q.arg w s = (true, v) → busWrite (q.arg + 4) x v = (true, u) → Asks .regWrite 0x61 s q {} (· = u)) ∧
      (busWrite q.arg w s = (true, v) → busWrite (q.arg + 4) x v = (false, u) →
        Asks .regWrite 0x61 s q { status := 3, arg := q.arg + 4 } (· = u))) ∧
    (∀ (pf : Fin 272) (space a n : Nat), q.arg = 0 → space ≤ 2 → a < 2 ^ 32 → n ≤ debugMax space →
      q.data = leBytes 1 space ++ [0] ++ leBytes 2 pf ++ leBytes 4 a ++ leBytes 4 n → runsAhead s pf = false →
      ((s.fold pf).hurdle = .opened → (s.hub.encrypted = true → s.present = true) →
        (space = 0 → OnlyAnswers .debugRead 0x58 s q
          { data := (List.range n).flatMap fun i => leBytes 2 (s.iword pf (a + i)).toNat }) ∧
        (space = 1 → OnlyAnswers .debugRead 0x58 s q
          { data := (List.range n).flatMap fun i => leBytes 2 (s.dword pf (a + i)).toNat })) ∧
      (space = 2 → (s.fold pf).hurdle = .opened →
        let u := portTurn pf portCycles s
        ((s.fold pf).moves = [] → (s.fold pf).histo = none → u = s) ∧
        ((∀ k < n, u.badRows pf ((a + k) % 2048) = 0) →
          Asks .debugRead 0x58 s q { data := ((List.range n).flatMap fun k =>
                                               (List.range 64).flatMap fun y =>
                                                 leBytes 8 (rowOf (u.plane pf ((a + k) % 2048)) y).toNat) } (· = u))) ∧
      (space < 2 → s.hub.encrypted = true → s.present = false → OnlyAnswers .debugRead 0x58 s q { status := 4 }) ∧
      ((s.fold pf).hurdle ≠ .opened → (s.hub.encrypted = true → s.present = true) →
        OnlyAnswers .debugRead 0x58 s q { status := 0xD })) ∧
    (∀ m : MboxReq, runsAhead s (leAt m.payload 2 2) = true → exec (.debugRead m) s = .next s) ∧
    (∀ (n : Fin 288) (w : Fin 6 → Word), q.arg = n.val → fld (w 5) 31 30 ≠ 3 →
      q.data = leBytes 4 (w 0).toNat ++ leBytes 4 (w 1).toNat ++ leBytes 4 (w 2).toNat ++ leBytes 4 (w 3).toNat ++
        leBytes 4 (w 4).toNat ++ leBytes 4 (w 5).toNat →
      Asks .probeSetup 0x50 s q {} fun u => (∀ k : Fin 6,
        let r := probeRegs.getD k .probectl
        u.reg r n &&& r.row.maskOf (· == .wl) = w k &&& r.row.maskOf (· == .wl) ∧ OthersKept r n s u) ∧
        u.reg .probecnt n = 0 ∧ u.reg .probestat n = 0 ∧ (∀ j < 256, u.reg .nodeTrace n j = 0) ∧
        RegsKept (probeRegs ++ [.probecnt, .probestat, .nodeTrace]) s u ∧ u = { s with regs := u.regs }) ∧
    ∀ m : MboxReq, let h := reqHeader m s
      (m.svc = true → s.host.svcHeld = none → m.hdr.length = 16 → m.payload.length = leAt h 4 4 → leAt h 0 2 ∉ knownCodes → headerBad h = false →
        s.mode ≠ .starting → s.mode ≠ .off → Goes (exec (.unknownCmd m) s) fun t =>
          MailboxOnly s t ∧ Responds m s t { status := 2 }) ∧
      (m.svc = false → s.host.mbox.busy = true → leAt h 0 2 ∉ knownCodes → headerBad h = false →
        s.mode ≠ .starting → s.mode ≠ .off → Goes (exec (.unknownCmd m) s) fun t =>
          MailboxOnly s t ∧ Responds m s t { status := 2 }) ∧
      (m.svc = true → s.host.svcHeld = none → m.hdr.length ≠ 16 → Goes (exec (.unknownCmd m) s) fun t =>
        (∃ hdr, t.out = s.out ++ [.service hdr []] ∧ t.host.svcResp = some (hdr, []) ∧ leAt hdr 8 1 = 3) ∧ t.regs = s.regs ∧ t.mem = s.mem ∧ t.hub = s.hub) ∧
      (m.svc = true → s.host.svcHeld.isSome → exec (.unknownCmd m) s = .next s) ∧
      (m.svc = true → s.host.svcHeld.isSome → s.host.svcHeld ≠ some m → exec (.configEnd m) s = .next s) ∧
      (m.svc = true → m.hdr.length = 16 → m.payload.length = leAt h 4 4 → leAt h 0 2 = 0x12 → hostFirst s = true →
        s.host.mbox.since / 2 < s.frame.time / 2 → s.host.svcHeld = none →
        exec (.configEnd m) s = .next { s with host := { s.host with svcHeld := some m, svcResp := none } }) ∧
      (s.host.svcHeld = some m → m.svc = true → leAt h 0 2 = 0x12 → hostFirst s = false →
        exec (.configEnd m) s = exec (.configEnd m) { s with host := { s.host with svcHeld := none } })

/-- R239, R240, R458 to R464, R468, R486, R487: SETTINGS_WRITE makes a new generation with its bytes merged in, as far as every
field it reaches allows, and a sealed key goes to the secure pasture as well, unless a wipe discards it; LIFECYCLE_SET takes a
permitted transition under presence once its wipe has run, and decommissioning clears what the module was configured with. Its
readings of log entries 49, 73, 75, 101, 106 and 109 are the model's choice. -/
def Obligations.SettingsAndLifeCycle : Prop :=
  ∀ (s : State) (q : Req),
    (∀ r, s.hub.fuses.lc ≠ 3 → s.hub.fw.st ≠ .confirming → q.data ≠ [] → q.arg + q.data.length ≤ 65536 → q.flashOk = true →
      (∀ i < q.data.length, (fieldAt (q.arg + i)).isSome) → Written s.hub.settings.cur q.arg q.data r →
      (∀ f ∈ fieldsOf q.arg q.data.length, f ≠ .cfgKey ∧ (∀ k, f ≠ .key k) ∧ fieldValueOk r f = true ∧ fieldRefused s f = none) →
      Asks .settingsWrite 0x31 s q {} fun u => NewGeneration s u ∧ u.hub.cfgKey = s.hub.cfgKey ∧
        u.hub.settings.cur.key = s.hub.settings.cur.key ∧ Written s.hub.settings.cur q.arg q.data u.hub.settings.cur) ∧
    (s.hub.fuses.lc = 3 → OnlyAnswers .settingsWrite 0x31 s q { status := 5 }) ∧
    (s.hub.fuses.lc ≠ 3 → s.hub.fw.st = .confirming → OnlyAnswers .settingsWrite 0x31 s q { status := 1 }) ∧
    (∀ k, s.hub.fuses.lc = 1 → s.present = true → s.tampered = false → s.hub.fuses.tampers < 31 → s.hub.fw.st ≠ .confirming →
      q.arg = 0x400 → q.data.length = 160 → bytesAt q.data 157 3 = [0, 0, 0] → q.flashOk = true →
      unwrapBlob (bytesAt q.data 0 157) = some k →
      Asks .settingsWrite 0x31 s q {} fun u => u.hub.settings.cur.key = some (k, s.hub.fuses.tampers) ∧
        (∀ o, u.hub.settings.cur.byte o = s.hub.settings.cur.byte o) ∧
        (s.hub.wipe = none → u.hub.cfgKey = some k ∧ u.rf .secpast 0 31 30 = 1 ∧ RegsKept [.secpast] s u) ∧
        (s.wiping = true → u.hub.cfgKey = s.hub.cfgKey ∧ RegsKept [] s u)) ∧
    (∀ new : Nat, q.arg = 0 → q.data = leBytes 1 new ++ [0, 0, 0] → new ≤ 3 →
      (s.present = false → OnlyAnswers .lifecycleSet 0x41 s q { status := 4 }) ∧
      (s.present = true → lcAllowed s.hub.fuses.lc new = false → OnlyAnswers .lifecycleSet 0x41 s q { status := 5 }) ∧
      (s.present = true → lcAllowed s.hub.fuses.lc new = true → s.ldr.session = none → s.actBusy = false →
        s.hub.fw.st ≠ .scheduled → s.hub.fw.st ≠ .confirming → (new = 3 → s.mode = .standby ∨ s.mode = .ready) →
        (s.hub.fuses.lc = 2 → new = 1 → s.hub.fuses.returns < 15) → (new = 2 → ∃ k < 4, (customerKey s k).isSome) →
        q.bad = none → (∀ w, s.hub.wipe = some w → w.bad = none) →
        Asks .lifecycleSet 0x41 s q {} fun u =>
          u.hub.fuses = { s.hub.fuses with lc := new, returns := s.hub.fuses.returns +
            (if s.hub.fuses.lc = 2 ∧ new = 1 then 1 else 0) } ∧
          Pend u 24 ∧ OneRecord s u ∧ u.rf .secpast 0 7 4 = 2 ∧ u.hub.wipe = none ∧
          (∀ a < 0x8800000, memByte u.mem a = memByte s.mem a) ∧
          (s.wiping = false → s.frame.time + 16384 ≤ u.frame.time ∧ u.frame.time ≤ s.frame.time + 34768 ∧
            ∀ a, 0x8800000 ≤ a → a < 0x8A00000 → memByte u.mem a = 0) ∧
          (new ≠ 3 → u.hub.cfgKey = storedKey s ∧ u.ldr = s.ldr ∧ u.hub.settings = s.hub.settings ∧ u.arr = s.arr) ∧
          (new = 3 → u.hub.cfgKey = none ∧ u.ldr.inForce = none ∧ (∀ i : Fin 3, u.slot i = {}) ∧ u.hub.fw.session = none ∧
            u.hub.fw.staging = [] ∧ u.hub.settings.cur.key = none ∧ (∀ k, customerKey u k = none) ∧
            u.setting 0x21 1 = 0xFF ∧ u.setting 0x22 1 = 0xFF ∧ (∀ o, o < 0x21 → u.setting o 1 = s.setting o 1))))

/-- R82, R84, R234, R303, R304, R398, R437: the records of a POWER_STATE are taken together for the next tick; where one is refused,
none is, and ARG is the first refused; the module's own record is taken during a load as well, for the state the load leaves. R24, R417,
R434, R435, R440, R446: a tick takes the recorded states: the module's state, shed pens, each pen's folds, banks and engines; a substituted
pen whose closing frame reached G + 832 rejoins and restores; the pens that take part enter. Its readings of log entries 31 and 46 are the
model's choice. -/
def Obligations.PowerRequests : Prop :=
  (∀ (s : State) (q : Req), q.arg = 0 → q.data.length % 4 = 0 → 0 < q.data.length → q.data.length ≤ 256 →
    let l := powerRecords q.data
    let before := afterRecords s.hub.nextPower s
    let after := afterRecords (l.filter fun r => r.kind ≠ 3) before
    ((∀ r ∈ l, Takes before after r) → Asks .powerState 0x49 s q {} fun u =>
      u = { s with hub := { s.hub with nextPower := s.hub.nextPower ++ l.filter (fun r => r.kind ≠ 3),
                                       nextRun := u.hub.nextRun, loadRun := u.hub.loadRun } } ∧
      ((∀ r ∈ l, r.kind ≠ 3) → u.hub.nextRun = s.hub.nextRun ∧ u.hub.loadRun = s.hub.loadRun) ∧
      (s.ldr.load = none → u.hub.loadRun = s.hub.loadRun) ∧
      (∀ r, l = [r] → r.kind = 3 → s.mode ≠ .shed → u.hub.nextRun = some (r.state == 1) ∧
        (s.ldr.load.isSome → u.hub.loadRun = some (r.state == 1)))) ∧
    (∀ (i : Nat) (r : PowRec) (st : Nat), l[i]? = some r → powRefused before r = some st →
      (∀ j < i, ∀ x, l[j]? = some x → Takes before after x) → OnlyAnswers .powerState 0x49 s q { status := st, arg := i }) ∧
    (∀ r p, l = [r] → r.kind = 0 → r.state = 2 → powReserved r = false → before.penAt r.index.toNat = some p → p.recorded = .on →
      p.unloaded = false → p.cfg.shed = true → s.mode = .shed → OnlyAnswers .powerState 0x49 s q { status := 1 }) ∧
    ∀ (i : Nat) (r : PowRec), l[i]? = some r → powRefused before r = none → powDark after r = true →
      (∀ j < i, ∀ x, l[j]? = some x → Takes before after x) → OnlyAnswers .powerState 0x49 s q { status := 3, arg := i }) ∧
  ∀ s : State, QuietTick s → Goes (exec .tick s) fun t =>
    t.hub.nextPower = [] ∧ t.hub.nextRun = none ∧ t.hub.wantRun = s.hub.nextRun.getD s.hub.wantRun ∧
    t.mode = (if s.ldr.inForce = none ∨ t.hub.wantRun = false ∨ (s.running = false ∧ bit (s.reg .bootstat) 25 = false) then .ready
      else if s.hub.shedding = true then .shed else .run) ∧
    (∀ p ∈ s.arr.pens, ∃ q ∈ t.arr.pens, q.cfg = p.cfg ∧ q.recorded = stateFor s.hub.nextPower 0 p.cfg.first p.recorded ∧
      (q.shedNow = true ↔ t.mode = .shed ∧ q.cfg.shed = true ∧ q.recorded = .on) ∧ TakesState s t q ∧
      (p.substPend = true → s.substBusy p = false → p.rejoinOk = true → q.substPend = false ∧ q.newLost = false ∧
        (∀ pf ∈ t.memberFolds q, (t.fold pf).subst = false) ∧ (p.substDone = true → q.entered = true → q.restored = true)) ∧
      (q.entered = true ↔ t.running = true ∧ q.recorded = .on ∧ q.shedNow = false ∧ q.leader.isSome ∧ q.substPend = false ∧
        q.newLost = false ∧ q.cfg.first ∉ t.ldr.stopped)) ∧
    (∀ r, s.hub.nextPower.getLast? = some r → r.kind = 1 → ∀ b, s.bankOf r.index.toNat = some b →
      (t.bank b).recorded = stateFor [r] 1 r.index.toNat .on) ∧
    (∀ b, (∀ r ∈ s.hub.nextPower, r.kind = 1 → s.bankOf r.index.toNat ≠ some b) → (t.bank b).recorded = (s.bank b).recorded) ∧
    ((∀ r ∈ s.hub.nextPower, r.kind ≠ 3) → ∀ e < 32,
      (t.engine e).recorded = stateFor s.hub.nextPower 2 e (s.engine e).recorded)

end Statements

namespace Sys2Proof.Claims

open Sys2Proof.Machine

/-! ### Firmware, start-up and resets -/

/-- Only the firmware's state has changed, and the image that runs is the same. -/
def OnlyFw (s u : State) : Prop := u = { s with hub := { s.hub with fw := u.hub.fw } } ∧ u.hub.fw.active = s.hub.fw.active

/-- Only the settings in flash, the fuses, the firmware, the stored slots, the Cairn, the pins' own state, the banks' soft repairs and the
supply are left of a module: a start-up begins at ROM with a cause, and the resets since power-up are counted (R419 to R421). -/
def Restarted (cause : Nat) (s t : State) : Prop :=
  t.phase = .rom ∧ t.mode = .starting ∧ t.rf .rstcause 0 31 28 = cause ∧
  t.rf .rstcause 0 15 0 = min 65535 (s.rf .rstcause 0 15 0 + 1) ∧ t.pending = s.pending ∧ t.arr = {} ∧ t.mem = [] ∧ t.eng = {} ∧
  t.frame = {} ∧ t.dw = {} ∧ t.evt = {} ∧ t.host = {} ∧ t.lanes = [] ∧
  (∀ x ∈ t.banks, ∃ y ∈ s.banks, x = (y.1, { soft := y.2.soft })) ∧
  (∀ y ∈ s.banks, y.2.soft ≠ [] → (y.1, { soft := y.2.soft }) ∈ t.banks) ∧ t.hub.fuses = s.hub.fuses ∧
  t.hub.settings.slots = s.hub.settings.slots ∧ t.hub.fw.active = s.hub.fw.active ∧ t.hub.fw.staging = s.hub.fw.staging ∧
  t.hub.supply = s.hub.supply ∧ t.hub.pres.source = 0 ∧ t.hub.cfgKey = none ∧ t.ldr.inForce = none ∧ t.ldr.session = none ∧
  t.cairn.recs = s.cairn.recs ∧ t.cairn.next = s.cairn.next ∧
  (∀ i : Fin 3, t.slot i = if (s.slot i).st = .stored then s.slot i else {}) ∧
  (∀ p < 192, t.reg .pinSafe p = s.reg .pinSafe p) ∧ t.reg .supStatus = s.reg .supStatus ∧
  ∀ n, n ∉ [RegName.rstcause, .cairnAck, .pinSafe, .supStatus, .supVin] →
    ∀ i < n.row.icount, ∀ j < n.row.jcount, t.reg n i j = n.row.rstVal

end Sys2Proof.Claims

section Statements

open Sys2Proof Sys2Proof.Machine Sys2Proof.Claims

/-- R472 to R483: opening, filling, scheduling and aborting an update; what turns a command away; the swap's reset; confirming
a new firmware burns its SECVER, and giving it up resets the module so that the loader goes back. Its readings of log entries
43, 60 and 74 are the model's choice. -/
def Obligations.FirmwareUpdate : Prop :=
  ∀ (s : State) (q : Req),
    (∀ (digest : List Byte) (n v : Nat) (take : Bool), digest.length = 48 → 352 ≤ n → n ≤ 8388608 → v < 2 ^ 32 →
      (take = true → q.svc = true) → q.arg = 0 →
      q.data = digest ++ leBytes 4 n ++ leBytes 4 v ++ [BitVec.ofNat 8 take.toNat] ++ List.replicate 7 0 →
      s.hub.fuses.lc ≠ 3 → s.hub.fw.st ≠ .confirming →
      (s.hub.fw.session = none → q.flashOk = true →
        Asks .updateOpen 0x20 s q { data := leBytes 4 ((n + 4095) / 4096) ++ [0, 0, 0, 0] } fun u => OnlyFw s u ∧
          u.hub.fw.session = some ⟨q.svc, digest, n, v, []⟩ ∧ u.hub.fw.staging = [] ∧ u.hub.fw.st = .idle) ∧
      (∀ x, s.hub.fw.session = some x → x.svc = q.svc → x.digest = digest →
        OnlyAnswers .updateOpen 0x20 s q { data := leBytes 4 (chunkCount x.length) ++ leBytes 4 x.chunks.length }) ∧
      (∀ x, s.hub.fw.session = some x → x.svc ≠ q.svc → take = false → OnlyAnswers .updateOpen 0x20 s q { status := 9 })) ∧
    (∀ x k data, s.hub.fw.session = some x → x.svc = q.svc → s.hub.fuses.lc ≠ 3 → q.arg = k → data.length = 4096 →
      q.data = data ++ leBytes 4 (crc32c data) → k < chunkCount x.length → q.flashOk = true → Store.get x.chunks [] k = [] →
      (k = 0 → headerErr s x data = none) →
      let x' := { x with chunks := Store.set x.chunks [] k data }
      (x'.chunks.length ≠ chunkCount x.length → Asks .updateChunk 0x21 s q {} fun u =>
        u.hub.fw.session = some x' ∧ u.hub.fw.st = .receiving ∧ RegsKept eventRegs s u ∧ u.mem = s.mem ∧ u.arr = s.arr ∧
        (x'.chunks.length % 128 = 0 → Pend u 16)) ∧
      (x'.chunks.length = chunkCount x.length → imageErr x' = none → Asks .updateChunk 0x21 s q {} fun u =>
        u.hub.fw.session = some x' ∧ u.hub.fw.st = .verified ∧ u.hub.fw.staging = sessionImage x' ∧ Pend u 17) ∧
      (∀ e, x'.chunks.length = chunkCount x.length → imageErr x' = some e → Asks .updateChunk 0x21 s q { status := e } fun u =>
        u.hub.fw.session = none ∧ u.hub.fw.st = .idle)) ∧
    (∀ x e, s.hub.fw.session = some x → x.svc = q.svc → s.hub.fuses.lc ≠ 3 → q.arg = 0 → e < 2 ^ 48 →
      q.data = leBytes 6 e ++ [0, 0] → (e = 0 ∨ s.frame.epoch.toNat < e) → (s.hub.fw.st = .verified ∨ s.hub.fw.st = .scheduled) →
      s.actBusy = false →
      ((x.version < s.fwVer.toNat → s.present = true) → Asks .updateSchedule 0x23 s q {} fun u =>
        u = { s with hub := { s.hub with fw := { s.hub.fw with st := .scheduled, epoch := e } } }) ∧
      (x.version < s.fwVer.toNat → s.present = false → OnlyAnswers .updateSchedule 0x23 s q { status := 8 })) ∧
    (∀ x, s.hub.fw.session = some x → x.svc = q.svc → s.hub.fuses.lc ≠ 3 → NoArgs q → s.hub.fw.st ≠ .confirming →
      Asks .updateAbort 0x24 s q {} fun u => OnlyFw s u ∧ u.hub.fw.session = none ∧ u.hub.fw.st = .idle ∧ u.hub.fw.staging = []) ∧
    (∀ x, s.hub.fw.session = some x → x.svc ≠ q.svc → s.hub.fuses.lc ≠ 3 → NoArgs q →
      OnlyAnswers .updateAbort 0x24 s q { status := 9 }) ∧
    (s.hub.fw.st = .scheduled → s.phase ≠ .loader → s.ticks = false → (s.mode = .standby ∨ s.mode = .halted) → s.hub.fw.epoch = 0 →
      (∀ w, s.hub.wipe = some w → w.bad = none) → Goes (exec .updateSwap s) fun t => Restarted 4 s t ∧ t.hub.fw.swapDue = true) ∧
    (s.hub.fw.st = .scheduled → s.phase = .loader → Goes (exec .updateSwap s) fun t =>
      Restarted 4 s t ∧ t.hub.fw.swapDue = true) ∧
    (s.hub.fw.st = .scheduled → s.phase ≠ .loader → s.tickDue = true → s.rf .tickcfg 0 2 0 ≠ 4 →
      s.frame.epoch.toNat + 1 < 2 ^ 48 → s.hub.fw.epoch ≤ s.frame.epoch.toNat + 1 →
      Goes (exec .updateSwap s) fun t => t.phase = .rom ∧ t.mode = .starting ∧ t.rf .rstcause 0 31 28 = 4 ∧
        t.hub.fw.swapDue = true ∧ t.hub.fw.staging = s.hub.fw.staging) ∧
    (∀ r, s.hub.fw.st = .confirming → s.hub.fw.readyAt = some r →
      let due := r + 1000000000 * s.setting 0x28 4
      let limit := r + 1000000000 * s.setting 0x30 4
      (s.rf .updHealth 0 31 30 ≠ 2 → s.setting 0x2C 4 ≤ (s.reg .updGoodfr).toNat → max due s.frame.time ≤ limit →
        Goes (exec .healthConfirmed s) fun t => Pend t 25 ∧ t.rf .updHealth 0 31 30 = 1 ∧
          t.hub.fuses = { s.hub.fuses with ver := fwSecVer s.hub.fw.active } ∧ t.hub.fw.st = .idle ∧ t.hub.fw.session = none ∧
          t.hub.fw.active = s.hub.fw.active ∧ t.frame.time = max s.frame.time due ∧ RegsKept (eventRegs ++ [.updHealth]) s t ∧
          t.mem = s.mem ∧ t.arr = s.arr) ∧
      Goes (exec .fallback s) fun t => Restarted 5 s t ∧
        t.hub.fw.backDue = some (if s.rf .updHealth 0 31 30 = 2 ∧ s.setting 0x28 4 ≤ s.setting 0x30 4 then 3 else 2))

/-- R231, R238, R239, R411 to R417, R479, R482 to R485: ROM wipes the secure pasture, and LOADER starts an image that may run, or swaps a
staged one in, or goes back from one in a reset of its own, once a feed supplies the module; in HALTED none of these runs; FIRMWARE reads
the settings and reaches STANDBY; the self-test repairs columns while spares are left, leaves what failed out and reaches READY with the
tick of epoch 0. Its readings of log entries 49, 60, 63, 81, 101, 112 and 124 are the model's choice. -/
def Obligations.StartUp : Prop :=
  ∀ s : State,
    (∀ c1 c2 : Byte, s.phase = .rom → s.mode = .starting → s.hub.stuck = false → (c1 = 0 ∨ c2 = 0) → s.hub.fw.backDue = none →
      s.hub.supply ≠ .off → s.hub.wipe = none →
      (s.hub.fw.swapDue = false → fwRunnable s s.hub.fw.active = true → Goes (exec (.loader c1 c2 none) s) fun t =>
        t.phase = .firmware ∧ t.hub.cfgKey = none ∧ t.rf .secpast 0 7 4 = 3 ∧ t.rf .secpast 0 31 30 = 0 ∧
        t.rf .secpast 0 15 8 = min 255 (s.rf .secpast 0 15 8 + 1) ∧ RegsKept [.secpast] s t ∧ t.cairn = s.cairn ∧
        s.frame.time + 16384 ≤ t.frame.time ∧ t.frame.time ≤ s.frame.time + 34768 ∧ t.hub.wipe = none ∧
        (∀ a, memByte t.mem a = if 0x8800000 ≤ a ∧ a < 0x8A00000 then 0 else memByte s.mem a) ∧
        t.hub.fw = { s.hub.fw with swapDue := false, backDue := none }) ∧
      (s.hub.fw.swapDue = true → fwVerify s s.hub.fw.staging = true → Goes (exec (.loader c1 c2 none) s) fun t =>
        t.phase = .firmware ∧ t.hub.fw.active = s.hub.fw.staging ∧ t.hub.fw.staging = s.hub.fw.active ∧
        t.hub.fw.st = .confirming ∧ OneRecord s t) ∧
      (s.hub.fw.swapDue = true → fwVerify s s.hub.fw.staging = false → fwRunnable s s.hub.fw.active = true →
        Goes (exec (.loader c1 c2 none) s) fun t => t.phase = .firmware ∧ t.hub.fw.active = s.hub.fw.active ∧
          t.hub.fw.staging = [] ∧ t.hub.fw.session = none ∧ t.hub.fw.st = .idle ∧ OneRecord s t)) ∧
    (∀ (c1 c2 : Byte) (k : Nat), s.phase = .rom → s.mode = .starting → s.hub.stuck = false → (c1 = 0 ∨ c2 = 0) →
      s.hub.fw.backDue = some k → s.hub.supply ≠ .off → s.hub.wipe = none →
      (s.rf .rstcause 0 31 28 ≠ 5 → Goes (exec (.loader c1 c2 none) s) fun t => Restarted 5 s t ∧ t.hub.fw.backDue = some k) ∧
      (s.rf .rstcause 0 31 28 = 5 → fwVerify s s.hub.fw.staging = true → Goes (exec (.loader c1 c2 none) s) fun t =>
        t.phase = .firmware ∧ t.hub.fw.active = s.hub.fw.staging ∧ t.hub.fw.staging = s.hub.fw.active ∧ t.hub.fw.backDue = none ∧
        t.hub.fw.session = none ∧ t.hub.fw.st = .idle ∧
        t.hub.fw.fellBack = some (k, fwVersion s.hub.fw.active, fwVersion s.hub.fw.staging) ∧ OneRecord s t)) ∧
    (∀ (c1 c2 : Byte) (refclk ok : Bool) (bad : Option (Fin 4096)), s.mode = .halted →
      exec (.loader c1 c2 bad) s = .next s ∧ exec (.loaderRetry c1 c2) s = .next s ∧ exec (.firmware refclk ok bad) s = .next s) ∧
    (∀ c1 c2 : Byte, s.phase = .rom → s.hub.supply = .off →
      exec (.loader c1 c2 none) s = .next s ∧ exec (.loaderRetry c1 c2) s = .next s) ∧
    (∀ c1 c2 : Byte, s.phase = .rom → s.mode = .starting → c1 ≠ 0 → c2 ≠ 0 →
      (s.hub.stuck = false → s.hub.supply ≠ .off → s.hub.wipe = none → Goes (exec (.loader c1 c2 none) s) fun t => t.phase = .rom ∧ t.hub.stuck = true ∧ OneRecord s t) ∧
      (s.hub.stuck = true → exec (.loaderRetry c1 c2) s = .next s)) ∧
    (∀ c1 c2 : Byte, s.phase = .rom → s.mode = .starting → s.hub.stuck = true → (c1 = 0 ∨ c2 = 0) → s.hub.fw.backDue = none → s.hub.fw.swapDue = false →
      s.hub.supply ≠ .off → fwRunnable s s.hub.fw.active = true → Goes (exec (.loaderRetry c1 c2) s) fun t =>
        t.phase = .firmware ∧ t.hub.stuck = false ∧ t.regs = s.regs) ∧
    (∀ (refclk flashOk : Bool) (w g : Nat) (r : SetRec) (i : Fin 2), s.phase = .firmware → s.mode = .starting → s.tampered = false →
      s.hub.fw.fellBack = none → s.hub.supply ≠ .off → s.hub.wipe = none →
      chooseSlot s.hub.fw.active s.hub.settings.slots = some (w, g, r, i) → w = fwSetVer s.hub.fw.active →
      Goes (exec (.firmware refclk flashOk none) s) fun t =>
        t.phase = .standby ∧ t.mode = .standby ∧ t.fwVer = BitVec.ofNat 32 (fwVersion s.hub.fw.active) ∧
        t.hub.settings.cur = r ∧ t.hub.settings.slots = s.hub.settings.slots ∧ t.hub.settings.gen = g ∧ t.edge.mapped = true ∧ t.edge.syncOn = true ∧
        (∀ p < 192, t.reg .pinSafe p = BitVec.ofNat 32 (r.num (0x100 + p) 1 % 32)) ∧
        (∀ k, r.key = some (k, s.hub.fuses.tampers) → s.rf .secpast 0 31 30 ≠ 3 → t.hub.cfgKey = some k) ∧
        ((r.num 0x20 1 = 0 ∨ refclk = true) → OneRecord s t)) ∧
    (∀ refclk : Bool, s.phase = .firmware → s.mode = .starting → s.tampered = false → s.hub.fw.fellBack = none → s.hub.supply ≠ .off →
      s.hub.settings.slots = Vector.replicate 2 .erased →
      Goes (exec (.firmware refclk true none) s) fun t => t.phase = .standby ∧ t.hub.settings.cur = {} ∧ t.hub.settings.gen = 1 ∧
        t.hub.settings.slots = (Vector.replicate 2 SetSlot.erased).set 0 (.good (fwSetVer s.hub.fw.active) 1 {})) ∧
    (∀ r : SelfTest, s.phase = .standby → s.mode = .standby → s.arr.pens = [] → s.ldr.inForce = none → s.ldr.load = none →
      s.ldr.act = .idle → s.hub.subst = none → s.hub.waiting = [] → s.hub.nextPower = [] → s.rf .tickcfg 0 2 0 = 0 →
      s.frame.rxEpoch = none → (∀ pf : Fin 272, (s.fold pf).goal = none) → s.hub.wipe = none →
      Goes (exec (.selftest r) s) fun t => t.phase = .ready ∧ t.mode = .ready ∧ t.frame.epoch = 0 ∧ t.frame.cycle = 0 ∧
        t.frame.ticked = true ∧ t.arr.pens = [] ∧ t.mem = s.mem ∧
        (∀ pf : Fin 272, (t.fold pf).power = if pf ∈ r.folds.map (·.1) then .off else .retain) ∧
        (∀ pf : Fin 272, (t.fold pf).role = if pf ∈ r.folds.map (·.1) then .isolated else (s.fold pf).role) ∧
        (∀ b : Fin 272, b ∈ r.banks.map (·.1) → (t.bank b).failed = true ∧ (t.bank b).power = .off) ∧
        (∀ b : Fin 272, b ∉ r.banks.map (·.1) → b ∉ r.soft.map (·.1) →
          (t.bank b).power = .retain ∧ (t.bank b).failed = (s.bank b).failed ∧ (t.bank b).soft = (s.bank b).soft) ∧
        (∀ (b : Fin 272) (a : Fin 4) (col : Nat), r.soft = [(b, a, col)] → b ∉ r.banks.map (·.1) → (a.val, col) ∉ (s.bank b).soft →
          if (Config.fused b a).val + ((s.bank b).soft.filter fun x => x.1 == a.val).length < 2
          then (t.bank b).soft = (s.bank b).soft ++ [(a.val, col)] ∧ (t.bank b).failed = (s.bank b).failed
          else (t.bank b).failed = true ∧ (t.bank b).power = .off) ∧
        (∀ e : Fin 32, (t.engine e).power = if e ∈ r.engines.map (·.1) then .off else .retain) ∧
        (∀ l ∈ r.lanes, (t.lane l).failed = true) ∧ (∀ b ∈ r.bridges, bit t.dw.lost b = true) ∧
        t.rf .selftest 0 31 23 = (r.folds.map (·.1)).eraseDups.length ∧ t.rf .selftest 0 22 14 = ((List.range 272).countP fun b => (t.bank b).failed) ∧
        t.rf .selftest 0 13 8 = (r.engines.map (·.1)).eraseDups.length ∧ t.rf .selftest 0 7 4 = r.bridges.eraseDups.length) ∧
    ((s.phase = .firmware ∨ s.phase = .standby ∨ s.phase = .selftest ∨ s.phase = .ready) → Goes (exec .holdupCharged s) fun t =>
      bit (t.reg .bootstat) 25 = true ∧ RegsKept [.bootstat] s t ∧ t = { s with regs := t.regs })

end Statements

namespace Sys2Proof.Claims

open Sys2Proof.Machine

/-! ### Supplies, thermal limits, presence, spares -/

/-- Only registers, events and the Cairn have changed beside the hub's own state. -/
def HubOnly (s t : State) : Prop :=
  t.mem = s.mem ∧ t.arr = s.arr ∧ t.ldr = s.ldr ∧ t.frame = s.frame ∧ t.mode = s.mode ∧ t.phase = s.phase ∧
  t.hub.fuses = s.hub.fuses ∧ t.hub.settings = s.hub.settings ∧ t.hub.fw = s.hub.fw

/-- The last Cairn record has a code (R449, R451). -/
def LastRecord (t : State) (code : Nat) : Prop := ∃ r, t.cairn.recs.getLast? = some r ∧ leAt r.bytes 22 2 = code

/-- The samples of some sensors are in their registers, the others read as before (R438). -/
def Sampled (temps : List (Fin 273 × Half)) (s u : State) : Prop :=
  (∀ x ∈ temps, u.reg .thermTemp x.1 = BitVec.ofNat 32 x.2.toNat) ∧
  (∀ i : Fin 273, i ∉ temps.map (·.1) → u.reg .thermTemp i = s.reg .thermTemp i) ∧
  RegsKept [.thermTemp] s u ∧ u = { s with regs := u.regs }

end Sys2Proof.Claims

section Statements

open Sys2Proof Sys2Proof.Machine Sys2Proof.Claims

/-- R351, R387, R419 to R423, R427 to R432: RESET_N and the watchdog start the module again; a feed that qualifies powers it up, VIN_A
where both do in one sample, one that is lost gives way to the other, and without one the module is off; the first feed takes over again
when it is stable. Its readings of log entries 60 and 71 are the model's choice. -/
def Obligations.ResetsAndSupplies : Prop :=
  ∀ s : State,
    (s.hub.supply ≠ .off → Goes (exec .resetN s) fun t => Restarted 2 s t ∧ t.hub.fw.backDue = s.hub.fw.backDue) ∧
    (s.hub.supply = .off → exec .resetN s = .next s) ∧
    (s.fwRuns = true ∨ s.phase = .firmware → s.mode ≠ .off → s.hub.supply ≠ .off → Goes (exec .watchdog s) fun t => Restarted 3 s t ∧
      t.hub.fw.backDue = if s.hub.fw.st = .confirming then some 2 else s.hub.fw.backDue) ∧
    (∀ (b : Bool) (va vb : Half),
      (s.hub.supply = .off → Goes (exec (.feedQualify b va vb) s) fun t =>
        t.phase = .rom ∧ t.mode = .starting ∧ t.hub.supply = (if b then .onB else .onA) ∧ t.arr = {} ∧ t.mem = [] ∧
        t.rf .supStatus 0 31 30 = (if b then 2 else 1) ∧ bit (t.reg .supStatus) (if b then 28 else 29) = true ∧
        t.rf .supVin 0 31 16 = va.toNat ∧ t.rf .supVin 0 15 0 = vb.toNat ∧ t.rf .rstcause 0 31 28 = 1 ∧ t.rf .rstcause 0 15 0 = 0 ∧
        t.hub.fuses = s.hub.fuses ∧ t.cairn.recs = s.cairn.recs) ∧
      (sameSample b s = true → s.hub.supply = .onB ∧ s.frame.time = 0 ∧ Goes (exec (.feedQualify b va vb) s) fun t =>
        t.hub.supply = .onA ∧ t.rf .supStatus 0 31 30 = 1 ∧ bit (t.reg .supStatus) 29 = true ∧
        RegsKept [.supStatus, .supVin] s t ∧ t = { s with regs := t.regs, hub := { s.hub with supply := .onA } }) ∧
      (s.hub.supply ≠ .off → sameSample b s = false → Goes (exec (.feedQualify b va vb) s) fun t =>
        bit (t.reg .supStatus) (if b then 28 else 29) = true ∧ t.rf .supVin 0 31 16 = va.toNat ∧ t.rf .supVin 0 15 0 = vb.toNat ∧
        RegsKept [.supStatus, .supVin] s t ∧ t = { s with regs := t.regs })) ∧
    (∀ (b ov : Bool) (va vb ns : Half), s.hub.supply ≠ .off → bit (s.reg .supStatus) (if b then 28 else 29) = true →
      (s.hub.supply = (if b then .onA else .onB) → Goes (exec (.feedLoss b ov va vb ns) s) fun t =>
        bit (t.reg .supStatus) (if b then 28 else 29) = false ∧ Pend t (if b then 2 else 1) ∧ LastRecord t 0x10 ∧
        t.rf .supCount 0 15 0 = min 65535 (s.rf .supCount 0 15 0 + 1) ∧ t.hub.supply = s.hub.supply ∧ HubOnly s t) ∧
      (s.hub.supply = (if b then .onB else .onA) → bit (s.reg .supStatus) (if b then 29 else 28) = true →
        Goes (exec (.feedLoss b ov va vb ns) s) fun t =>
          t.hub.supply = (if b then .onA else .onB) ∧ t.rf .supStatus 0 31 30 = (if b then 1 else 2) ∧ Pend t (if b then 2 else 1) ∧
          Pend t 3 ∧ LastRecord t 0x11 ∧ t.rf .supCount 0 31 16 = min 65535 (s.rf .supCount 0 31 16 + 1) ∧ HubOnly s t) ∧
      (s.hub.supply = (if b then .onB else .onA) → bit (s.reg .supStatus) (if b then 29 else 28) = false →
        Goes (exec (.feedLoss b ov va vb ns) s) fun t =>
          t.mode = .off ∧ t.hub.supply = .off ∧ t.mem = [] ∧ t.arr = {} ∧ t.lanes = [] ∧ t.hub.fuses = s.hub.fuses ∧
          t.hub.settings.slots = s.hub.settings.slots ∧ t.ldr.inForce = none)) ∧
    ∀ ns : Half,
      (s.hub.supply = .onB → bit (s.reg .supStatus) 29 = true → Goes (exec (.vinAStable ns) s) fun t =>
        t.hub.supply = .onA ∧ t.rf .supStatus 0 31 30 = 1 ∧ bit (t.reg .supStatus) 27 = true ∧ Pend t 3 ∧ LastRecord t 0x11 ∧
        HubOnly s t) ∧
      (s.hub.supply = .onA → bit (s.reg .supStatus) 29 = true → Goes (exec (.vinAStable ns) s) fun t =>
        bit (t.reg .supStatus) 27 = true ∧ RegsKept [.supStatus] s t ∧ t = { s with regs := t.regs })

/-- R384, R385, R387, R405, R431, R432, R438 to R440: the highest reading moves the level up at 140, 148 and 155 °C and down below
135 °C, or below 143 °C for a second; the link and the function come up, change state and reset the host's blocks alone; a return to
D0 sends the messages owed. Its readings of log entries 115 and 117 are the model's choice. -/
def Obligations.ThermalAndLink : Prop :=
  ∀ s : State,
    (∀ temps x i, s.mode ≠ .off → s.hub.supply ≠ .off → (temps.map (·.1)).Nodup →
      (∀ y ∈ temps, y.1.val = 272 ∨ s.mode = .ready ∨ s.running = true) → ∀ u, Sampled temps s u → hottest u = some (x, i) →
      Goes (exec (.thermalSample temps) s) fun t =>
        (∀ k : Fin 273, t.rf .thermTemp k 15 0 = u.rf .thermTemp k 15 0 ∨ 155 * 16 ≤ x) ∧
        reading (t.reg .thermStatus) = x ∧ t.rf .thermStatus 0 24 16 = i ∧
        (x < 140 * 16 → s.rf .thermStatus 0 31 30 = 0 → t.rf .thermStatus 0 31 30 = 0 ∧
          RegsKept [.thermTemp, .thermStatus, .thermPeak] s t ∧ t = { s with regs := t.regs }) ∧
        (s.mode ≠ .halted → s.rf .thermStatus 0 31 30 = 0 → 140 * 16 ≤ x → x < 148 * 16 →
          t.rf .thermStatus 0 31 30 = 1 ∧ Pend t 4 ∧ LastRecord t 0x20 ∧ HubOnly s t) ∧
        (s.mode ≠ .halted → s.rf .thermStatus 0 31 30 = 1 → x < 135 * 16 → t.rf .thermStatus 0 31 30 = 0 ∧ HubOnly s t) ∧
        (s.mode ≠ .halted → s.rf .thermStatus 0 31 30 < 2 → 148 * 16 ≤ x → x < 155 * 16 →
          t.rf .thermStatus 0 31 30 = 2 ∧ Pend t 5 ∧ LastRecord t 0x21 ∧ t.hub.shedding = true ∧ HubOnly s t) ∧
        (s.mode ≠ .halted → 155 * 16 ≤ x → t.mode = .halted ∧ (∀ a < 0x8800000, memByte t.mem a = 0) ∧ t.lanes = [] ∧ LastRecord t 0x22 ∧
          bit (t.reg .usbStatus) 31 = false ∧ (∀ pf, (t.fold pf).power = .off))) ∧
    (s.rf .thermStatus 0 31 30 = 2 → reading (s.reg .thermStatus) < 143 * 16 → Goes (exec .shedClear s) fun t =>
      t.rf .thermStatus 0 31 30 = 1 ∧ t.hub.shedding = false ∧ RegsKept [.thermStatus] s t ∧
      t = { s with regs := t.regs, hub := { s.hub with shedding := false } }) ∧
    (let blocks := fun (t : State) => t.evt = { setAt := s.evt.setAt, setNow := t.evt.setNow } ∧
        t.host = { s.host with dma := [], nic := [], mbox := { s.host.mbox with lostPayload := s.host.mbox.busy } } ∧
        t.mem = s.mem ∧ t.arr = s.arr ∧ t.hub = s.hub ∧ t.ldr = s.ldr ∧
        ∀ n, ∀ i < n.row.icount, ∀ j < n.row.jcount, n ≠ .usbStatus →
          t.reg n i j = if (0x10000 ≤ n.row.base ∧ n.row.base < 0x20000) ∨ (0x800000 ≤ n.row.base ∧ n.row.base < 0x810000)
            then n.row.rstVal else s.reg n i j;
      (Goes (exec .functionLevelReset s) fun t => blocks t ∧ bit (t.reg .usbStatus) 24 = false) ∧
      (bit (s.reg .usbStatus) 31 = true → Goes (exec .usb4LinkDown s) fun t => blocks t ∧ t.rf .usbStatus 0 31 24 = 0 ∧
        t.rf .usbStatus 0 15 0 = min 65535 (s.rf .usbStatus 0 15 0 + 1)) ∧
      (bit (s.reg .usbStatus) 31 = false → exec .usb4LinkDown s = .next s)) ∧
    (∀ rate : Fin 4, s.fwRuns = true → s.mode ≠ .off → bit (s.reg .usbStatus) 31 = false → Goes (exec (.usb4LinkUp rate) s) fun t =>
      (rate.val = 0 → bit (t.reg .usbStatus) 31 = false ∧ bit (t.reg .usbStatus) 25 = true) ∧
      (rate.val ≠ 0 → bit (t.reg .usbStatus) 31 = true ∧ bit (t.reg .usbStatus) 30 = true ∧ t.rf .usbStatus 0 29 28 = rate) ∧
      RegsKept [.usbStatus] s t ∧ t = { s with regs := t.regs }) ∧
    (∀ st : Fin 4, bit (s.reg .usbStatus) 31 = true →
      (s.running = false ∨ st.val = 0 → Goes (exec (.linkPowerStateEntry st) s) fun t =>
        t.rf .usbStatus 0 27 26 = st ∧ RegsKept [.usbStatus] s t ∧ t = { s with regs := t.regs }) ∧
      (s.running = true → st.val ≠ 0 → exec (.linkPowerStateEntry st) s = .next s)) ∧
    (bit (s.reg .usbStatus) 31 = true → Goes (exec .d3hotEntry s) fun t =>
      bit (t.reg .usbStatus) 24 = true ∧ RegsKept [.usbStatus] s t ∧ t = { s with regs := t.regs }) ∧
    Goes (exec .d0Return s) fun t => bit (t.reg .usbStatus) 24 = false ∧ RegsKept [.usbStatus, .msixPba] s t ∧
      t = { s with regs := t.regs, out := t.out, evt := t.evt } ∧
      ∀ v : Fin 64, bit (s.reg .msixCtrl v) 0 = false → inHoldoff v s = false →
        ((bit (s.reg .msixPba (v / 32)) (v % 32) = true ∨ bit s.evt.heldOff v = true) →
          .msi v ∈ t.out ∧ bit (t.reg .msixPba (v / 32)) (v % 32) = false ∧ bit t.evt.heldOff v = false) ∧
        (bit (s.reg .msixPba (v / 32)) (v % 32) = false → bit s.evt.heldOff v = false →
          (.msi v ∈ t.out ↔ Output.msi v ∈ s.out))

/-- R239, R240, R455, R456, R465 to R467: a hold is timed while its sign lasts, asserts presence for the window after 2 s and
counts; presence ends when the window runs out; a tamper condition that appears while the hub runs, from ROM on, starts a wipe of the secure
pasture, or joins the one in progress, burns a fuse where a key is stored, ends presence and is on record. Its readings of log
entries 101 and 110 are the model's choice. -/
def Obligations.PresenceAndTamper : Prop :=
  ∀ s : State,
    (s.timesHolds = true → s.hub.pres.keyHeld = false → Goes (exec (.presenceHold .keyAppears) s) fun t =>
      t = { s with hub := { s.hub with pres := { s.hub.pres with keyHeld := true, keySince := some s.frame.time } } }) ∧
    (s.timesHolds = true → s.hub.pres.pinHeld = false → Goes (exec (.presenceHold .pinLow) s) fun t =>
      t = { s with hub := { s.hub with pres := { s.hub.pres with pinHeld := true, pinSince := some s.frame.time } } }) ∧
    (Goes (exec (.presenceHold .keyLeaves) s) fun t =>
      t = { s with hub := { s.hub with pres := { s.hub.pres with keyHeld := false, keySince := none } } }) ∧
    (Goes (exec (.presenceHold .pinHigh) s) fun t =>
      t = { s with hub := { s.hub with pres := { s.hub.pres with pinHeld := false, pinSince := none } } }) ∧
    (s.timesHolds = true → Goes (exec (.presenceHold .wrongField) s) fun t =>
      t.rf .presCount 0 15 0 = min 65535 (s.rf .presCount 0 15 0 + 1) ∧ RegsKept [.presCount] s t ∧ t = { s with regs := t.regs }) ∧
    (∀ (key : Bool) (since : Nat), (if key then s.hub.pres.keySince else s.hub.pres.pinSince) = some since →
      Goes (exec (.presenceOn key) s) fun t =>
        t.frame.time = max s.frame.time (since + 2000000000) ∧ t.hub.pres.source = (if key then 1 else 2) ∧
        t.hub.pres.ends = t.frame.time + 1000000000 * s.setting 0x24 2 ∧
        t.rf .presCount 0 31 16 = min 65535 (s.rf .presCount 0 31 16 + 1) ∧ RegsKept (eventRegs ++ [.presCount]) s t ∧
        (if s.present = true then t.evt = s.evt ∧ t.out = s.out else Pend t 7) ∧
        t.mem = s.mem ∧ t.arr = s.arr ∧ t.hub.fuses = s.hub.fuses) ∧
    (s.present = true → Goes (exec .presenceOff s) fun t =>
      t.present = false ∧ Pend t 8 ∧ t.frame.time = max s.frame.time s.hub.pres.ends ∧ RegsKept eventRegs s t ∧ t.mem = s.mem ∧
      t.arr = s.arr ∧ t.hub.fuses = s.hub.fuses) ∧
    (s.present = false → exec .presenceOff s = .next s) ∧
    ∀ mesh : Bool,
      (s.tampered = false → s.hub.supply ≠ .off → s.mode ≠ .off → Goes (exec (.tamper mesh none) s) fun t =>
        t.rf .secpast 0 7 4 = 1 ∧ t.hub.wipe.isSome ∧
        (s.wiping = true → t.hub.wipe = s.hub.wipe ∧ t.hub.cfgKey = s.hub.cfgKey ∧ t.mem = s.mem) ∧
        (s.wiping = false → t.hub.cfgKey = none ∧ t.rf .secpast 0 31 30 = 2 ∧
          (∀ a, 0x8800000 ≤ a → a < 0x8A00000 → memByte t.mem a = 0) ∧
          ∀ w, t.hub.wipe = some w → w.bad = none ∧ s.frame.time + 16384 ≤ w.till ∧ w.till ≤ s.frame.time + 34768) ∧
        (s.hub.wipe = none → RegsKept (eventRegs ++ [.secpast, .cairnStatus]) s t) ∧ (∀ a < 0x8800000, memByte t.mem a = memByte s.mem a) ∧
        t.hub.fuses.tampers = s.hub.fuses.tampers + (if (storedKey s).isSome ∧ s.hub.fuses.tampers < 31 then 1 else 0) ∧
        t.hub.fuses.lc = s.hub.fuses.lc ∧ t.present = false ∧ Pend t 6 ∧ (s.present = true → Pend t 8) ∧ LastRecord t 0x80 ∧
        t.tampered = true ∧ t.frame = s.frame ∧ t.arr = s.arr ∧ t.ldr = s.ldr) ∧
      (s.tampered = true ∨ s.hub.supply = .off ∨ s.mode = .off → Goes (exec (.tamper mesh none) s) fun t =>
        t.tampered = true ∧ t = { s with hub := { s.hub with lid := s.hub.lid || !mesh, mesh := s.hub.mesh || mesh } })

/-- R442 to R447: a fold that a check has found failed goes behind its hurdle, its pen stops and the spare of its logical fold
wakes, or the member is LOST where there is none; a substitution that completes moves the logical fold to the spare, with the pen's
program; a spare that does not wake, or fails, leaves the member LOST; HUB.SUBST shows the fold and the step in progress. Its readings of log
entries 31, 48, 61, 89 and 108 are the model's choice. -/
def Obligations.SpareSubstitution : Prop :=
  ∀ s : State,
    (∀ (pf : Fin 272) (p : Pen) (a : Nat), pf.val ∈ s.arr.failed → s.penOfFold pf = some p → s.beingReplaced p.cfg.first = false →
      PensApart s → s.hub.subst = none → s.alternate (s.fold pf).lf = some a → a ≠ pf → Goes (exec (.foldIsolation pf) s) fun t =>
        pf.val ∉ t.arr.failed ∧ (t.fold pf).role = .isolated ∧ (t.fold pf).power = .off ∧ (t.fold pf).hurdle = .closed ∧
        (t.fold a).power = .waking ∧ (t.hub.subst.map fun x => (x.pf, x.lf, x.spare, x.since)) = some (pf.val, (s.fold pf).lf, a, s.frame.time) ∧
        (PenThen t p.cfg.first fun n => n.stopped = true ∧ n.substPend = true) ∧
        (∀ q ∈ s.memberFolds p, (t.fold q).subst = true) ∧ RegsKept (eventRegs ++ [.racnt, .raabs]) s t ∧ t.mem = s.mem) ∧
    (∀ (pf : Fin 272) (p : Pen), pf.val ∈ s.arr.failed → s.penOfFold pf = some p → s.beingReplaced p.cfg.first = false →
      PensApart s → s.hub.subst = none → s.alternate (s.fold pf).lf = none → Goes (exec (.foldIsolation pf) s) fun t =>
        (t.fold pf).role = .isolated ∧ (t.fold pf).power = .off ∧ (t.fold pf).lost = true ∧ t.hub.subst = none ∧ LastRecord t 0x32 ∧
        (PenThen t p.cfg.first fun n => n.stopped = true ∧ n.newLost = true)) ∧
    (∀ (pf : Fin 272) (p : Pen), pf.val ∈ s.arr.failed → s.penOfFold pf = some p → s.beingReplaced p.cfg.first = false →
      s.hub.subst.isSome → Goes (exec (.foldIsolation pf) s) fun t =>
        (t.fold pf).role = .isolated ∧ t.hub.subst = s.hub.subst ∧ t.hub.waiting = s.hub.waiting ++ [(pf.val, s.frame.time)]) ∧
    (∀ pf : Fin 272, pf.val ∉ s.arr.failed → exec (.foldIsolation pf) s = .next s) ∧
    (∀ x, s.hub.subst = some x → x.pf < 272 → let v := readReg s ⟨.hubSubst, 0, 0⟩
      bit v 31 = true ∧ 2 ≤ fld v 30 28 ∧ fld v 30 28 ≤ 5 ∧ fld v 24 16 = x.pf) ∧
    ∀ (us : Word) (x : Subst) (p : Pen), s.hub.subst = some x → s.hub.waiting = [] → s.penOf x.lf = some p → x.spare < 272 →
      x.pf ≠ x.spare →
      (Goes (exec (.spareSubstituted us .complete) s) fun t =>
        t.hub.subst = none ∧ t.pfOf x.lf = some x.spare ∧ (t.fold x.spare).role = .active ∧ (t.fold x.spare).power = .on ∧
        (t.fold x.spare).hurdle = .opened ∧ Pend t 14 ∧ LastRecord t 0x31 ∧
        t.rf .hubSubst 0 7 0 = min 255 (s.rf .hubSubst 0 7 0 + 1) ∧ t.mem = s.mem ∧
        (∀ q, p.cfg.count ≠ 1 → copySource s p x.lf = some q → q ≠ x.spare → ∀ a,
          t.iword x.spare a = s.iword q a ∧ t.dword x.spare a = s.dword q a) ∧
        (p.cfg.count = 1 → ∀ a, t.iword x.spare a = s.iword x.spare a ∧ t.dword x.spare a = s.dword x.spare a)) ∧
      (Goes (exec (.spareSubstituted us .noWake) s) fun t =>
        t.hub.subst = none ∧ (t.fold x.pf).lost = true ∧ (t.fold x.spare).power = .retain ∧ LastRecord t 0x32 ∧ t.mem = s.mem) ∧
      ∀ k : Fin 3, Goes (exec (.spareSubstituted us (.failed k)) s) fun t =>
        t.hub.subst = none ∧ (t.fold x.pf).lost = true ∧ (t.fold x.spare).role = .isolated ∧ (t.fold x.spare).power = .off ∧
        bit (t.reg .faultstat x.spare) (k.val + 1) = true ∧ LastRecord t 0x32

end Statements

namespace Sys2Proof.Claims

open Sys2Proof.Machine

/-! ### The host's window and the DMA channels -/

/-- No router's probe watches (R276, R277). -/
def ProbesOff (s : State) : Prop := ∀ n < 288, s.rf .probectl n 31 30 = 0

/-- Every word of a byte range of the pasture is in an open bank whose port serves the host at once, no quiet-step scrub going before it. -/
def RangeFree (s : State) (a n : Nat) : Prop :=
  a + n ≤ 0x08800000 ∧ ∀ x, a ≤ x → x < a + n → PortFree s (x / 0x80000) ∧ (s.quiet && bit (s.reg .scrub (x / 0x80000)) 0) = false

/-- Every word of a byte range reads without error. -/
def RangeGood (s : State) (a n : Nat) : Prop :=
  ∀ x, a ≤ x → x < a + n → s.eccOf (x / 0x80000) (x % 0x80000 / 8) = .good

/-- A byte range holds some bytes, and every other byte of pasture is as it was. -/
def BytesStored (s t : State) (a : Nat) (l : List Byte) : Prop :=
  memBytes t.mem a l.length = l ∧ ∀ x, x < a ∨ a + l.length ≤ x → memByte t.mem x = memByte s.mem x

/-- A descriptor of 32 bytes may start on a channel, and it is one of an operation without a reserved value and within the pasture; every
one in progress there has issued what it has. -/
def MayRun (s : State) (c : Fin 8) (desc : List Byte) (op : Nat) : Prop :=
  (dmaDesc desc).op = op ∧ 32 ≤ desc.length ∧ (dmaDesc desc).bad = false ∧ (dmaDesc desc).range = false ∧
  dmaMayStart s c (dmaDesc desc) = true ∧ ∀ r ∈ (s.dma c).runs, r.words ≤ r.sent

/-- A descriptor is in progress on a channel, as `P` says; no other channel, no ring, no memory and no register has changed. -/
def InProgress (s t : State) (c : Fin 8) (desc : List Byte) (P : DmaRun → Prop) : Prop :=
  let d := dmaDesc desc
  (∃ r, t.dma c = { s.dma c with runs := (s.dma c).runs ++ [r] } ∧ P r ∧ r.irq = decide (d.ctl % 2 = 1) ∧ r.op = d.op ∧
    r.haddr = d.haddr ∧ r.paddr2 = d.paddr2 ∧ r.urg = d.ctl / 16) ∧
  (∀ k, k ≠ c.val → t.dma k = s.dma k) ∧ t.host.nic = s.host.nic ∧ t.host.mbox = s.host.mbox ∧ t.mem = s.mem ∧ t.arr = s.arr ∧
  t.eng = s.eng ∧ t.hub = s.hub ∧ t.ldr = s.ldr ∧ t.frame = s.frame

/-- A packet is the host's request of a type for the word at a pasture address (R40, R249, R256, R406). -/
def HostRequest (s : State) (urg a : Nat) (type : BitVec 5) (data : List Dword) (p : Pkt) : Prop :=
  p.net = .req ∧ p.type = type ∧ p.src = 288 ∧ p.dst.toNat = (if a < 0x08800000 then a / 0x80000 else 288) ∧
  p.word.toNat = a % 0x80000 / 8 ∧ p.unit = 6 ∧ p.vc = 2 ∧ p.urg.toNat = urg ∧ p.fepv = false ∧ p.tep = s.dw.tep ∧ p.len = 0 ∧
  p.body.payload = data ∧ (type = 2 → p.bmask = 0xFF ∧ p.body.ackreq = true)

/-- A descriptor has started and issued its word requests from the first on, each under the next free one of its channel's 56 tags, as
far as these go (R253, R406, R407). -/
def DmaSends (s t : State) (c : Fin 8) (desc : List Byte) (type : BitVec 5) (data : Nat → List Dword) : Prop :=
  let d := dmaDesc desc
  let free := ((List.range 56).map fun x => BitVec.ofNat 13 (6656 + 56 * c + x)).filter fun x => (s.tag x).isNone
  let k := min (d.length / 8) free.length
  (InProgress s t c desc fun r => r.err = 0 ∧ r.words = d.length / 8 ∧ r.sent = k ∧
    r.reqs = (List.range k).map fun j => { tag := (free.getD j 0).toNat, word := j }) ∧
  t.regs = s.regs ∧ ∃ l : List Pkt, t.out = s.out ++ l.map .packet ∧ l.length = k ∧ ∀ j < k,
    HostRequest s (d.ctl / 16) (d.paddr + 8 * j) type (data j) (l.getD j {}) ∧ (l.getD j {}).tag = free.getD j 0 ∧
    t.tag (free.getD j 0) = some { pkt := l.getD j {}, fresh := true }

/-- A posted atomic of a descriptor: one request, without a tag (R253, R407). -/
def DmaPosts (s t : State) (c : Fin 8) (desc : List Byte) (type : BitVec 5) : Prop :=
  let d := dmaDesc desc
  (InProgress s t c desc fun r => r.err = 0 ∧ r.words = 1 ∧ r.sent = 1 ∧ r.reqs = []) ∧ t.regs = s.regs ∧ t.dw = s.dw ∧
  ∃ p, t.out = s.out ++ [.packet p] ∧ HostRequest s (d.ctl / 16) d.paddr type [BitVec.ofNat 64 d.operand] p ∧ p.tag = noTag

/-- A response is one to the outstanding request `q` of descriptor `i` of a channel, whose word it is for (R41, R253, R408). -/
def AnswersDma (s : State) (p : Pkt) (c i : Nat) (r : DmaRun) (q : DmaReq) (h : Pkt) : Prop :=
  p.net = .rsp ∧ p.dst = 288 ∧ p.unit = 6 ∧ p.fepv = false ∧ NotQueued s p 4 ∧ p.tag ≠ noTag ∧
  (∃ x, s.tag p.tag = some x ∧ x.pkt = h) ∧
  c = (p.tag.toNat - 6656) / 56 ∧ runOf s c p.tag.toNat = some (i, q) ∧ (s.dma c).runs[i]? = some r ∧ r.err = 0

end Sys2Proof.Claims

section Statements

open Sys2Proof Sys2Proof.Machine Sys2Proof.Claims

/-- R236, R253, R271, R390: BAR2 reads and writes the bytes of the pasture, a read under a free tag of the host's and without one not at
all; at a closed bank a read gives all ones, a write is dropped and ISOLATED counted; above the pasture a read gives all ones and a write
is dropped. Its readings of log entries 28, 30 and 94 are the model's choice. -/
def Obligations.HostWindow : Prop :=
  ∀ (a : BitVec 28) (s : State),
    (∀ len : Fin 4097, (freeTag s 7104 64).isSome → ProbesOff s → RangeFree s (a.toNat / 8 * 8) (8 * ((a.toNat + len + 7) / 8 - a.toNat / 8)) →
      RangeGood s (a.toNat / 8 * 8) (8 * ((a.toNat + len + 7) / 8 - a.toNat / 8)) →
      Goes (exec (.bar2Read a len) s) fun t =>
        t = { s with out := s.out ++ [.readData (memBytes s.mem a.toNat len)], banks := t.banks } ∧
        ∀ b, t.bank b = { s.bank b with busy := (t.bank b).busy }) ∧
    (∀ len : Fin 4097, a.toNat < 0x08800000 → freeTag s 7104 64 = none → RangeFree s (a.toNat / 8 * 8) (8 * ((a.toNat + len + 7) / 8 - a.toNat / 8)) →
      exec (.bar2Read a len) s = .next s) ∧
    (∀ len : Fin 4097, 0x08800000 ≤ a.toNat →
      exec (.bar2Read a len) s = .next { s with out := s.out ++ [.readData (List.replicate len 0xFF)] }) ∧
    (a.toNat % 8 = 0 → a.toNat < 0x08800000 → (freeTag s 7104 64).isSome → s.bankShut (a.toNat / 0x80000) = true →
      Goes (exec (.bar2Read a 8) s) fun t =>
      .readData (List.replicate 8 0xFF) ∈ t.out ∧ t.mem = s.mem ∧
      t.rf .nodeErrcnt1 (a.toNat / 0x80000) 31 16 = min 65535 (s.rf .nodeErrcnt1 (a.toNat / 0x80000) 31 16 + 1)) ∧
    (∀ l : List Byte, l ≠ [] → ProbesOff s → RangeFree s (a.toNat / 8 * 8) (8 * ((a.toNat + l.length + 7) / 8 - a.toNat / 8)) →
      RangeGood s (a.toNat / 8 * 8) (8 * ((a.toNat + l.length + 7) / 8 - a.toNat / 8)) →
      Goes (exec (.bar2Write a l) s) fun t => BytesStored s t a.toNat l ∧ t.regs = s.regs ∧ t.arr = s.arr ∧ t.hub = s.hub) ∧
    (∀ l : List Byte, 0x08800000 ≤ a.toNat → exec (.bar2Write a l) s = .next s) ∧
    (∀ l : List Byte, l.length = 8 → a.toNat % 8 = 0 → a.toNat < 0x08800000 → s.bankShut (a.toNat / 0x80000) = true →
      Goes (exec (.bar2Write a l) s) fun t => t.mem = s.mem ∧ t.ecc = s.ecc ∧
        t.rf .nodeErrcnt1 (a.toNat / 0x80000) 31 16 = min 65535 (s.rf .nodeErrcnt1 (a.toNat / 0x80000) 31 16 + 1))

/-- R164, R387, R397, R406 to R408: a descriptor that may start issues its word requests under its channel's tags; what is
malformed, out of range, behind a closed hurdle or not given or taken by the host ends with its code; the words read and the old
values go to the host, a copied word to its second address; a first ROUTE_EPOCH is issued again; once nothing is outstanding,
completion writes STATUS, moves HEAD and halts the channel on an error. Its readings of log entries 9, 28, 32, 94, 104 and 113 are
the model's choice. -/
def Obligations.DmaDescriptors : Prop :=
  ∀ (c : Fin 8) (desc host : List Byte) (taken : Nat) (s : State),
    let d := dmaDesc desc
    let old := [BitVec.ofNat 64 d.operand]
    (MayRun s c desc 0 → d.length ≤ host.length → Goes (exec (.dmaH2p c desc host) s) fun t =>
      DmaSends s t c desc 2 fun j => [BitVec.ofNat 64 (leAt host (8 * j) 8)]) ∧
    (MayRun s c desc 0 → host.length < 8 → Goes (exec (.dmaH2p c desc host) s) fun t =>
      (InProgress s t c desc fun r => r.err = 6 ∧ r.sent = 0 ∧ r.reqs = []) ∧ t = { s with host := t.host }) ∧
    (MayRun s c desc 1 → Goes (exec (.dmaP2h c desc taken) s) fun t => DmaSends s t c desc 1 fun _ => []) ∧
    (MayRun s c desc 2 → Goes (exec (.dmaP2p c desc) s) fun t => DmaSends s t c desc 1 fun _ => []) ∧
    (MayRun s c desc 3 → Goes (exec (.dmaAddP c desc) s) fun t => DmaPosts s t c desc 3) ∧
    (MayRun s c desc 4 → Goes (exec (.dmaAddR c desc taken) s) fun t => DmaSends s t c desc 4 fun _ => old) ∧
    (MayRun s c desc 5 → Goes (exec (.dmaSwapP c desc) s) fun t => DmaPosts s t c desc 5) ∧
    (MayRun s c desc 6 → Goes (exec (.dmaSwapR c desc taken) s) fun t => DmaSends s t c desc 6 fun _ => old) ∧
    (∀ pf : Fin 272, MayRun s c desc 7 → d.paddr % 512 = pf.val →
      (Goes (exec (.dmaPlaneRd c desc taken) s) fun t => ∃ r, (t.dma c).runs = (s.dma c).runs ++ [r] ∧ r.op = 7 ∧ r.words = 0) ∧
      ((s.fold pf).hurdle = .opened → (s.fold pf).moves = [] → (s.fold pf).histo = none →
        (∀ k < d.length / 512, s.badRows pf ((d.paddr / 512 + k) % 2048) = 0) →
        Goes (exec (.dmaPlaneRd c desc taken) s) fun t =>
          let bytes := (List.range (d.length / 512)).flatMap fun k => (List.range 64).flatMap fun y =>
            leBytes 8 (rowOf (s.plane pf ((d.paddr / 512 + k) % 2048)) y).toNat
          (InProgress s t c desc fun r => r.words = 0 ∧ r.reqs = [] ∧ r.err = if d.length ≤ taken then 0 else 6) ∧ t.regs = s.regs ∧
          t.out = s.out ++ if taken = 0 then [] else [.hostWrite d.haddr (bytes.take taken)]) ∧
      ((s.fold pf).hurdle ≠ .opened → Goes (exec (.dmaPlaneRd c desc taken) s) fun t =>
        (InProgress s t c desc fun r => r.err = 1 ∧ r.reqs = []) ∧
        t.rf .nodeErrcnt1 pf 31 16 = min 65535 (s.rf .nodeErrcnt1 pf 31 16 + 1))) ∧
    (∀ x ∈ [(Instr.dmaH2p c desc host, 0), (.dmaP2h c desc taken, 1), (.dmaP2p c desc, 2), (.dmaAddP c desc, 3),
        (.dmaAddR c desc taken, 4), (.dmaSwapP c desc, 5), (.dmaSwapR c desc taken, 6), (.dmaPlaneRd c desc taken, 7)],
      (dmaMayStart s c d = false → exec x.1 s = .next s) ∧
      (dmaMayStart s c d = true → desc.length < 32 → Goes (exec x.1 s) fun t =>
        t.dma c = { s.dma c with runs := (s.dma c).runs ++ [{ err := 6, irq := false }] } ∧ (∀ k, k ≠ c.val → t.dma k = s.dma k) ∧
        t = { s with host := { s.host with dma := t.host.dma } }) ∧
      (32 ≤ desc.length → d.op ≠ x.2 → d.op ≤ 7 → exec x.1 s = .next s) ∧
      (dmaMayStart s c d = true → 32 ≤ desc.length → (d.op = x.2 ∨ 7 < d.op) → d.bad = true → Goes (exec x.1 s) fun t =>
        (InProgress s t c desc fun r => r.err = 7 ∧ r.reqs = []) ∧ t = { s with host := t.host }) ∧
      (dmaMayStart s c d = true → 32 ≤ desc.length → d.op = x.2 → d.bad = false → d.range = true → Goes (exec x.1 s) fun t =>
        (InProgress s t c desc fun r => r.err = 5 ∧ r.reqs = []) ∧ t = { s with host := t.host })) ∧
    (∀ (p : Pkt) (k i : Nat) (r : DmaRun) (q : DmaReq) (h : Pkt), AnswersDma s p k i r q h →
      let v := p.body.payload.headD 0
      (∀ i' : Instr, ((i' = .rdata p ∧ p.type = 2) ∨ (i' = .oldval p ∧ p.type = 3)) → h.type ≠ 2 → r.op ≠ 2 → Goes (exec i' s) fun t =>
        t.mem = s.mem ∧ t.regs = s.regs ∧
        (8 * q.word + 8 ≤ r.taken → .hostWrite (r.haddr + 8 * q.word) (leBytes 8 v.toNat) ∈ t.out) ∧
        (r.taken < 8 * q.word + 8 → ((t.dma k).runs[i]?.map (·.err)) = some 6)) ∧
      (p.type = 2 → h.type = 1 → r.op = 2 → r.urg < 16 → 6656 ≤ p.tag.toNat → p.tag.toNat < 7104 → Goes (exec (.rdata p) s) fun t =>
        t.mem = s.mem ∧ t.regs = s.regs ∧ ∃ w, Sent t w ∧ HostRequest s r.urg (r.paddr2 + 8 * q.word) 2 [v] w) ∧
      (p.type = 1 → h.type = 2 → r.reqs = [q] → r.words ≤ r.sent → Goes (exec (.ack p) s) fun t =>
        t.mem = s.mem ∧ t.regs = s.regs ∧ (t.dma k).runs[i]? = some { r with reqs := [] }) ∧
      ∀ pos, p.type = 6 → Goes (exec (.error p pos) s) fun t => t.mem = s.mem ∧ t.regs = s.regs ∧
        (p.body.err ≠ 0 → p.body.err ≠ 2 ∨ q.again = true → ((t.dma k).runs[i]?.map (·.err)) = some p.body.err.toNat) ∧
        (p.body.err = 2 → q.again = false → ((t.dma k).runs[i]?.map (·.err)) = some 0 ∧
          t.out = s.out ++ [.packet { h with tep := s.dw.tep, leg := 0 }])) ∧
    (∀ r rest, (s.dma c).runs = r :: rest → r.ended = true → 0 < (s.dma c).ring.size → (s.dma c).ring.size ≤ 4096 → r.err < 16 →
      Goes (exec (.dmaCompletion c) s) fun t =>
        (t.dma c).runs = rest ∧ (∀ k, k ≠ c.val → t.dma k = s.dma k) ∧
        .hostWrite ((s.dma c).ring.base + 32 * s.rf .dmaHead c 11 0 + 3) [BitVec.ofNat 8 (128 + r.err)] ∈ t.out ∧
        t.rf .dmaHead c 11 0 = (s.rf .dmaHead c 11 0 + 1) % (s.dma c).ring.size ∧ t.mem = s.mem ∧ t.arr = s.arr ∧
        (r.err ≠ 0 → bit (t.reg .dmaStatus c) 31 = true ∧ t.rf .dmaStatus c 3 0 = r.err) ∧
        (r.err = 0 → t.reg .dmaStatus c = s.reg .dmaStatus c) ∧
        ((r.err ≠ 0 ∨ r.irq = true) → s.inD3 = false → bit (s.reg .msixCtrl (s.rf .dmaCtrl c 5 0)) 0 = false →
          inHoldoff (s.rf .dmaCtrl c 5 0) s = false → .msi (s.rf .dmaCtrl c 5 0) ∈ t.out)) ∧
    (((s.dma c).runs = [] ∨ ∃ r rest, (s.dma c).runs = r :: rest ∧ r.ended = false) → exec (.dmaCompletion c) s = .next s) ∧
    ∀ w : Word,
      (bit w 31 = true → bit w 30 = false → bit (s.reg .dmaCtrl c) 31 = false → Goes (exec (.dmaEnable c w) s) fun t =>
        (t.dma c).ring = ⟨true, addr64 (s.reg .dmaBaseLo c) (s.reg .dmaBaseHi c), 16 * 2 ^ s.rf .dmaRingcfg c 3 0⟩ ∧
        t.reg .dmaCtrl c = w &&& 0x8000003F#32 ∧ t.reg .dmaHead c = s.reg .dmaHead c ∧ (t.dma c).runs = (s.dma c).runs ∧
        RegsKept [.dmaCtrl] s t ∧ t = { s with regs := t.regs, host := { s.host with dma := t.host.dma } }) ∧
      (bit w 31 = false → bit w 30 = false → Goes (exec (.dmaEnable c w) s) fun t =>
        (t.dma c).ring = { (s.dma c).ring with on := false } ∧ (t.dma c).runs = (s.dma c).runs ∧ RegsKept [.dmaCtrl] s t ∧
        t = { s with regs := t.regs, host := { s.host with dma := t.host.dma } }) ∧
      (bit w 30 = true → exec (.dmaEnable c w) s = exec (.dmaResume c w) s) ∧
      Goes (exec (.dmaResume c w) s) fun t => bit (t.reg .dmaStatus c) 31 = false ∧ RegsKept [.dmaCtrl, .dmaStatus] s t ∧
        t.mem = s.mem ∧ t.arr = s.arr ∧
        ((∀ r ∈ (s.dma c).runs, r.words ≤ r.sent) → (t.dma c).runs = (s.dma c).runs ∧ t.out = s.out)

/-- R402 to R405, R449, R454: a source that fires is pending whatever its routing, and where it is routed there it leaves a record
in the ring, or is lost where the ring is full, and signals its vector, at once or where its cycle has several sources, after them;
the ring starts afresh when it is enabled; held signals; the Cairn's window and its warning. Its readings of log entries 6, 110 and
115 are the model's choice. -/
def Obligations.HostEvents : Prop :=
  ∀ s : State,
    (∀ src < 1280, ∀ detail, FiredOnly src s (fire src detail s) ∧
      (∀ l, s.evt.batch = some l → (fire src detail s).evt.batch = some (l ++ [(src, detail)]) ∧ (fire src detail s).out = s.out) ∧
      (s.evt.batch = none → s.rf .ringhead 0 11 0 < s.evt.size → s.evt.size ≤ 4096 → bit (s.reg .evtSrc src) 31 = true → bit (s.reg .ringcfg) 31 = true →
        let head := s.rf .ringhead 0 11 0
        let full := (head + 1) % s.evt.size = s.rf .ringtail 0 11 0 % s.evt.size
        (¬ full → .hostWrite (s.evt.base + 16 * head) (eventRecord src detail s.evt.phase s.frame) ∈ (fire src detail s).out ∧
          (fire src detail s).rf .ringhead 0 11 0 = (head + 1) % s.evt.size) ∧
        (full → (fire src detail s).rf .evtStat 0 31 16 = min 65535 (s.rf .evtStat 0 31 16 + 1) ∧
          (fire src detail s).rf .ringhead 0 11 0 = head)) ∧
      (s.evt.batch = none → bit (s.reg .evtSrc src) 30 = true → s.inD3 = false → bit (s.reg .msixCtrl (fld (s.reg .evtSrc src) 5 0)) 0 = false →
        inHoldoff (fld (s.reg .evtSrc src) 5 0) s = false → .msi (fld (s.reg .evtSrc src) 5 0) ∈ (fire src detail s).out)) ∧
    (∀ w : Word,
      (8 < fld w 3 0 → Goes (exec (.ringEnable w) s) (TurnedAway s)) ∧
      (fld w 3 0 ≤ 8 → bit w 31 = true → bit (s.reg .ringcfg) 31 = false → Goes (exec (.ringEnable w) s) fun t =>
        t.evt = { s.evt with base := addr64 (s.reg .ringbaseLo) (s.reg .ringbaseHi), size := 16 * 2 ^ fld w 3 0, phase := true } ∧
        t.reg .ringhead = 0 ∧ t.reg .ringtail = 0 ∧ t.reg .ringcfg = w &&& 0x8000000F#32 ∧
        RegsKept [.ringhead, .ringtail, .ringcfg] s t ∧ t = { s with regs := t.regs, evt := t.evt }) ∧
      (fld w 3 0 ≤ 8 → (bit w 31 = false ∨ bit (s.reg .ringcfg) 31 = true) → Goes (exec (.ringEnable w) s) fun t =>
        t.reg .ringcfg = w &&& 0x8000000F#32 ∧ RegsKept [.ringcfg] s t ∧ t = { s with regs := t.regs })) ∧
    (∀ v : Fin 64, (bit s.evt.heldOff v = false → exec (.holdoffExpiry v) s = .next s) ∧
      (bit s.evt.heldOff v = true → s.inD3 = false → bit (s.reg .msixCtrl v) 0 = false → Goes (exec (.holdoffExpiry v) s) fun t =>
        .msi v ∈ t.out ∧ bit t.evt.heldOff v = false ∧ t.regs = s.regs ∧ t.mem = s.mem ∧ t.arr = s.arr)) ∧
    (∀ (v : Fin 64) (w : Word),
      (bit w 0 = true → Goes (exec (.msixUnmask v w) s) fun t =>
        t.reg .msixCtrl v = 1 ∧ RegsKept [.msixCtrl] s t ∧ OthersKept .msixCtrl v s t ∧ t = { s with regs := t.regs }) ∧
      (bit w 0 = false → bit (s.reg .msixPba (v / 32)) (v % 32) = true → s.inD3 = false → inHoldoff v s = false →
        Goes (exec (.msixUnmask v w) s) fun t => t.reg .msixCtrl v = 0 ∧ bit (t.reg .msixPba (v / 32)) (v % 32) = false ∧
          .msi v ∈ t.out ∧ RegsKept [.msixCtrl, .msixPba] s t ∧ t.mem = s.mem ∧ t.arr = s.arr) ∧
      (bit w 0 = false → s.inD3 = true → Goes (exec (.msixUnmask v w) s) fun t =>
        t.reg .msixCtrl v = 0 ∧ RegsKept [.msixCtrl] s t ∧ OthersKept .msixCtrl v s t ∧ t = { s with regs := t.regs })) ∧
    (∀ w : Word, Goes (exec (.cairnAckWrite w) s) fun t => t.reg .cairnAck = w ∧ t.cairn.recs = s.cairn.recs ∧
      (if 32768 - s.cairn.pinned - 1024 ≤ (s.cairn.newest + 2 ^ 32 - w.toNat) % 2 ^ 32
        then t.cairn.disarmed = true ∧ Pend t 20
        else t.cairn.disarmed = false ∧ RegsKept [.cairnAck] s t ∧ t.out = s.out)) ∧
    ∀ w : Word, Goes (exec (.cairnWinselWrite w) s) fun t =>
      t.reg .cairnWinsel = w ∧ RegsKept [.cairnWinsel, .cairnWinstat, .cairnWin] s t ∧ t = { s with regs := t.regs } ∧
      (∀ r, s.cairn.recs.find? (·.index == w.toNat) = some r → bit (t.reg .cairnWinstat) 31 = true ∧
        ∀ i < 16, t.reg .cairnWin i = BitVec.ofNat 32 (leAt r.bytes (4 * i) 4)) ∧
      (s.cairn.recs.find? (·.index == w.toNat) = none → bit (t.reg .cairnWinstat) 31 = false ∧ ∀ i < 16, t.reg .cairnWin i = 0)

end Statements

namespace Sys2Proof.Claims

open Sys2Proof.Machine

/-! ### Invariants -/

/-- The Cairn holds at most 32,768 records, at most 2,048 of them pinned (R448). -/
def CairnBounded (s : State) : Prop := s.cairnFits = true ∧ s.cairn.pinned ≤ 2048

/-- A command is LIFECYCLE_SET. -/
def setsLifeCycle : Instr → Bool
  | .lifecycleSet _ => true
  | _ => false

end Sys2Proof.Claims

section Statements

open Sys2Proof Sys2Proof.Machine Sys2Proof.Claims

/-- R410, R420: before power-up no command waits, no fold is ON, no bank's hurdle is open, no pen runs, nothing is in force; every register reads
the value its table gives; the memories are in canonical form and the Cairn within its bounds. That it starts without supply, and
the rest that the spec leaves open, are the model's choices (log entry 5). -/
def Obligations.ResetIsQuiet : Prop :=
  State.reset.pending = [] ∧ State.reset.out = [] ∧ (∀ pf, (State.reset.fold pf).power = .off) ∧
  (∀ b, State.reset.bankShut b = true) ∧ State.reset.arr.pens = [] ∧ State.reset.ldr.inForce = none ∧
  (∀ n i j, State.reset.reg n i j = n.row.rstVal) ∧ (∀ a, memByte State.reset.mem a = 0) ∧ State.reset.cairn.recs = [] ∧
  State.reset.memWf = true ∧ CairnBounded State.reset

/-- Every step keeps the memories in canonical form: addresses rising, no byte 0 listed. -/
def Obligations.StepKeepsMemoryForm : Prop :=
  ∀ s t : State, s.memWf = true → step s = .next t → t.memWf = true

/-- R448: every step keeps the Cairn within its 32,768 slots and at most 2,048 pinned records. -/
def Obligations.StepKeepsCairnBounds : Prop :=
  ∀ s t : State, CairnBounded s → step s = .next t → CairnBounded t

/-- R458 to R460: no command but LIFECYCLE_SET changes the life cycle, and that one only under presence, by a permitted transition. -/
def Obligations.LifeCycleOnlyByCommand : Prop :=
  ∀ (c : Instr) (s t : State), exec c s = .next t →
    (setsLifeCycle c = false → t.hub.fuses.lc = s.hub.fuses.lc) ∧
    (t.hub.fuses.lc ≠ s.hub.fuses.lc → s.present = true ∧ lcAllowed s.hub.fuses.lc t.hub.fuses.lc = true)

end Statements
end

