-- ==== Sys2Proof/Laws/State.lean ====
section
/-! SUPPORT. What each update of the state leaves as it was: one lemma for each field and update. -/

namespace Sys2Proof.Machine

variable (s : State)

/-! `setReg` changes `regs` alone. -/

@[simp] theorem State.setReg_pending (n : RegName) (i j : Nat) (v : Word) : (s.setReg n i j v).pending = s.pending := rfl
@[simp] theorem State.setReg_out (n : RegName) (i j : Nat) (v : Word) : (s.setReg n i j v).out = s.out := rfl
@[simp] theorem State.setReg_freeCount (n : RegName) (i j : Nat) (v : Word) : (s.setReg n i j v).freeCount = s.freeCount := rfl
@[simp] theorem State.setReg_mode (n : RegName) (i j : Nat) (v : Word) : (s.setReg n i j v).mode = s.mode := rfl
@[simp] theorem State.setReg_phase (n : RegName) (i j : Nat) (v : Word) : (s.setReg n i j v).phase = s.phase := rfl
@[simp] theorem State.setReg_fwVer (n : RegName) (i j : Nat) (v : Word) : (s.setReg n i j v).fwVer = s.fwVer := rfl
@[simp] theorem State.setReg_frame (n : RegName) (i j : Nat) (v : Word) : (s.setReg n i j v).frame = s.frame := rfl
@[simp] theorem State.setReg_arr (n : RegName) (i j : Nat) (v : Word) : (s.setReg n i j v).arr = s.arr := rfl
@[simp] theorem State.setReg_eng (n : RegName) (i j : Nat) (v : Word) : (s.setReg n i j v).eng = s.eng := rfl
@[simp] theorem State.setReg_ldr (n : RegName) (i j : Nat) (v : Word) : (s.setReg n i j v).ldr = s.ldr := rfl
@[simp] theorem State.setReg_mem (n : RegName) (i j : Nat) (v : Word) : (s.setReg n i j v).mem = s.mem := rfl
@[simp] theorem State.setReg_ecc (n : RegName) (i j : Nat) (v : Word) : (s.setReg n i j v).ecc = s.ecc := rfl
@[simp] theorem State.setReg_banks (n : RegName) (i j : Nat) (v : Word) : (s.setReg n i j v).banks = s.banks := rfl
@[simp] theorem State.setReg_dw (n : RegName) (i j : Nat) (v : Word) : (s.setReg n i j v).dw = s.dw := rfl
@[simp] theorem State.setReg_lanes (n : RegName) (i j : Nat) (v : Word) : (s.setReg n i j v).lanes = s.lanes := rfl
@[simp] theorem State.setReg_evt (n : RegName) (i j : Nat) (v : Word) : (s.setReg n i j v).evt = s.evt := rfl
@[simp] theorem State.setReg_host (n : RegName) (i j : Nat) (v : Word) : (s.setReg n i j v).host = s.host := rfl
@[simp] theorem State.setReg_cairn (n : RegName) (i j : Nat) (v : Word) : (s.setReg n i j v).cairn = s.cairn := rfl
@[simp] theorem State.setReg_edge (n : RegName) (i j : Nat) (v : Word) : (s.setReg n i j v).edge = s.edge := rfl
@[simp] theorem State.setReg_hub (n : RegName) (i j : Nat) (v : Word) : (s.setReg n i j v).hub = s.hub := rfl

/-! `setRf` changes `regs` alone. -/

@[simp] theorem State.setRf_pending (n : RegName) (i hi lo x j : Nat) : (s.setRf n i hi lo x j).pending = s.pending := rfl
@[simp] theorem State.setRf_out (n : RegName) (i hi lo x j : Nat) : (s.setRf n i hi lo x j).out = s.out := rfl
@[simp] theorem State.setRf_freeCount (n : RegName) (i hi lo x j : Nat) : (s.setRf n i hi lo x j).freeCount = s.freeCount := rfl
@[simp] theorem State.setRf_mode (n : RegName) (i hi lo x j : Nat) : (s.setRf n i hi lo x j).mode = s.mode := rfl
@[simp] theorem State.setRf_phase (n : RegName) (i hi lo x j : Nat) : (s.setRf n i hi lo x j).phase = s.phase := rfl
@[simp] theorem State.setRf_fwVer (n : RegName) (i hi lo x j : Nat) : (s.setRf n i hi lo x j).fwVer = s.fwVer := rfl
@[simp] theorem State.setRf_frame (n : RegName) (i hi lo x j : Nat) : (s.setRf n i hi lo x j).frame = s.frame := rfl
@[simp] theorem State.setRf_arr (n : RegName) (i hi lo x j : Nat) : (s.setRf n i hi lo x j).arr = s.arr := rfl
@[simp] theorem State.setRf_eng (n : RegName) (i hi lo x j : Nat) : (s.setRf n i hi lo x j).eng = s.eng := rfl
@[simp] theorem State.setRf_ldr (n : RegName) (i hi lo x j : Nat) : (s.setRf n i hi lo x j).ldr = s.ldr := rfl
@[simp] theorem State.setRf_mem (n : RegName) (i hi lo x j : Nat) : (s.setRf n i hi lo x j).mem = s.mem := rfl
@[simp] theorem State.setRf_ecc (n : RegName) (i hi lo x j : Nat) : (s.setRf n i hi lo x j).ecc = s.ecc := rfl
@[simp] theorem State.setRf_banks (n : RegName) (i hi lo x j : Nat) : (s.setRf n i hi lo x j).banks = s.banks := rfl
@[simp] theorem State.setRf_dw (n : RegName) (i hi lo x j : Nat) : (s.setRf n i hi lo x j).dw = s.dw := rfl
@[simp] theorem State.setRf_lanes (n : RegName) (i hi lo x j : Nat) : (s.setRf n i hi lo x j).lanes = s.lanes := rfl
@[simp] theorem State.setRf_evt (n : RegName) (i hi lo x j : Nat) : (s.setRf n i hi lo x j).evt = s.evt := rfl
@[simp] theorem State.setRf_host (n : RegName) (i hi lo x j : Nat) : (s.setRf n i hi lo x j).host = s.host := rfl
@[simp] theorem State.setRf_cairn (n : RegName) (i hi lo x j : Nat) : (s.setRf n i hi lo x j).cairn = s.cairn := rfl
@[simp] theorem State.setRf_edge (n : RegName) (i hi lo x j : Nat) : (s.setRf n i hi lo x j).edge = s.edge := rfl
@[simp] theorem State.setRf_hub (n : RegName) (i hi lo x j : Nat) : (s.setRf n i hi lo x j).hub = s.hub := rfl

/-! `count` changes `regs` alone. -/

@[simp] theorem State.count_pending (n : RegName) (i hi lo k : Nat) : (s.count n i hi lo k).pending = s.pending := rfl
@[simp] theorem State.count_out (n : RegName) (i hi lo k : Nat) : (s.count n i hi lo k).out = s.out := rfl
@[simp] theorem State.count_freeCount (n : RegName) (i hi lo k : Nat) : (s.count n i hi lo k).freeCount = s.freeCount := rfl
@[simp] theorem State.count_mode (n : RegName) (i hi lo k : Nat) : (s.count n i hi lo k).mode = s.mode := rfl
@[simp] theorem State.count_phase (n : RegName) (i hi lo k : Nat) : (s.count n i hi lo k).phase = s.phase := rfl
@[simp] theorem State.count_fwVer (n : RegName) (i hi lo k : Nat) : (s.count n i hi lo k).fwVer = s.fwVer := rfl
@[simp] theorem State.count_frame (n : RegName) (i hi lo k : Nat) : (s.count n i hi lo k).frame = s.frame := rfl
@[simp] theorem State.count_arr (n : RegName) (i hi lo k : Nat) : (s.count n i hi lo k).arr = s.arr := rfl
@[simp] theorem State.count_eng (n : RegName) (i hi lo k : Nat) : (s.count n i hi lo k).eng = s.eng := rfl
@[simp] theorem State.count_ldr (n : RegName) (i hi lo k : Nat) : (s.count n i hi lo k).ldr = s.ldr := rfl
@[simp] theorem State.count_mem (n : RegName) (i hi lo k : Nat) : (s.count n i hi lo k).mem = s.mem := rfl
@[simp] theorem State.count_ecc (n : RegName) (i hi lo k : Nat) : (s.count n i hi lo k).ecc = s.ecc := rfl
@[simp] theorem State.count_banks (n : RegName) (i hi lo k : Nat) : (s.count n i hi lo k).banks = s.banks := rfl
@[simp] theorem State.count_dw (n : RegName) (i hi lo k : Nat) : (s.count n i hi lo k).dw = s.dw := rfl
@[simp] theorem State.count_lanes (n : RegName) (i hi lo k : Nat) : (s.count n i hi lo k).lanes = s.lanes := rfl
@[simp] theorem State.count_evt (n : RegName) (i hi lo k : Nat) : (s.count n i hi lo k).evt = s.evt := rfl
@[simp] theorem State.count_host (n : RegName) (i hi lo k : Nat) : (s.count n i hi lo k).host = s.host := rfl
@[simp] theorem State.count_cairn (n : RegName) (i hi lo k : Nat) : (s.count n i hi lo k).cairn = s.cairn := rfl
@[simp] theorem State.count_edge (n : RegName) (i hi lo k : Nat) : (s.count n i hi lo k).edge = s.edge := rfl
@[simp] theorem State.count_hub (n : RegName) (i hi lo k : Nat) : (s.count n i hi lo k).hub = s.hub := rfl

/-! `emit` changes `out` alone. -/

@[simp] theorem State.emit_pending (o : Output) : (s.emit o).pending = s.pending := rfl
@[simp] theorem State.emit_freeCount (o : Output) : (s.emit o).freeCount = s.freeCount := rfl
@[simp] theorem State.emit_mode (o : Output) : (s.emit o).mode = s.mode := rfl
@[simp] theorem State.emit_phase (o : Output) : (s.emit o).phase = s.phase := rfl
@[simp] theorem State.emit_fwVer (o : Output) : (s.emit o).fwVer = s.fwVer := rfl
@[simp] theorem State.emit_regs (o : Output) : (s.emit o).regs = s.regs := rfl
@[simp] theorem State.emit_frame (o : Output) : (s.emit o).frame = s.frame := rfl
@[simp] theorem State.emit_arr (o : Output) : (s.emit o).arr = s.arr := rfl
@[simp] theorem State.emit_eng (o : Output) : (s.emit o).eng = s.eng := rfl
@[simp] theorem State.emit_ldr (o : Output) : (s.emit o).ldr = s.ldr := rfl
@[simp] theorem State.emit_mem (o : Output) : (s.emit o).mem = s.mem := rfl
@[simp] theorem State.emit_ecc (o : Output) : (s.emit o).ecc = s.ecc := rfl
@[simp] theorem State.emit_banks (o : Output) : (s.emit o).banks = s.banks := rfl
@[simp] theorem State.emit_dw (o : Output) : (s.emit o).dw = s.dw := rfl
@[simp] theorem State.emit_lanes (o : Output) : (s.emit o).lanes = s.lanes := rfl
@[simp] theorem State.emit_evt (o : Output) : (s.emit o).evt = s.evt := rfl
@[simp] theorem State.emit_host (o : Output) : (s.emit o).host = s.host := rfl
@[simp] theorem State.emit_cairn (o : Output) : (s.emit o).cairn = s.cairn := rfl
@[simp] theorem State.emit_edge (o : Output) : (s.emit o).edge = s.edge := rfl
@[simp] theorem State.emit_hub (o : Output) : (s.emit o).hub = s.hub := rfl

/-! `draw` changes `freeCount` alone. -/

@[simp] theorem State.draw_pending (w : Nat) : ((s.draw w).2).pending = s.pending := rfl
@[simp] theorem State.draw_out (w : Nat) : ((s.draw w).2).out = s.out := rfl
@[simp] theorem State.draw_mode (w : Nat) : ((s.draw w).2).mode = s.mode := rfl
@[simp] theorem State.draw_phase (w : Nat) : ((s.draw w).2).phase = s.phase := rfl
@[simp] theorem State.draw_fwVer (w : Nat) : ((s.draw w).2).fwVer = s.fwVer := rfl
@[simp] theorem State.draw_regs (w : Nat) : ((s.draw w).2).regs = s.regs := rfl
@[simp] theorem State.draw_frame (w : Nat) : ((s.draw w).2).frame = s.frame := rfl
@[simp] theorem State.draw_arr (w : Nat) : ((s.draw w).2).arr = s.arr := rfl
@[simp] theorem State.draw_eng (w : Nat) : ((s.draw w).2).eng = s.eng := rfl
@[simp] theorem State.draw_ldr (w : Nat) : ((s.draw w).2).ldr = s.ldr := rfl
@[simp] theorem State.draw_mem (w : Nat) : ((s.draw w).2).mem = s.mem := rfl
@[simp] theorem State.draw_ecc (w : Nat) : ((s.draw w).2).ecc = s.ecc := rfl
@[simp] theorem State.draw_banks (w : Nat) : ((s.draw w).2).banks = s.banks := rfl
@[simp] theorem State.draw_dw (w : Nat) : ((s.draw w).2).dw = s.dw := rfl
@[simp] theorem State.draw_lanes (w : Nat) : ((s.draw w).2).lanes = s.lanes := rfl
@[simp] theorem State.draw_evt (w : Nat) : ((s.draw w).2).evt = s.evt := rfl
@[simp] theorem State.draw_host (w : Nat) : ((s.draw w).2).host = s.host := rfl
@[simp] theorem State.draw_cairn (w : Nat) : ((s.draw w).2).cairn = s.cairn := rfl
@[simp] theorem State.draw_edge (w : Nat) : ((s.draw w).2).edge = s.edge := rfl
@[simp] theorem State.draw_hub (w : Nat) : ((s.draw w).2).hub = s.hub := rfl

/-! `modFold` changes `arr` alone. -/

@[simp] theorem State.modFold_pending (pf : Nat) (g : Fold → Fold) : (s.modFold pf g).pending = s.pending := rfl
@[simp] theorem State.modFold_out (pf : Nat) (g : Fold → Fold) : (s.modFold pf g).out = s.out := rfl
@[simp] theorem State.modFold_freeCount (pf : Nat) (g : Fold → Fold) : (s.modFold pf g).freeCount = s.freeCount := rfl
@[simp] theorem State.modFold_mode (pf : Nat) (g : Fold → Fold) : (s.modFold pf g).mode = s.mode := rfl
@[simp] theorem State.modFold_phase (pf : Nat) (g : Fold → Fold) : (s.modFold pf g).phase = s.phase := rfl
@[simp] theorem State.modFold_fwVer (pf : Nat) (g : Fold → Fold) : (s.modFold pf g).fwVer = s.fwVer := rfl
@[simp] theorem State.modFold_regs (pf : Nat) (g : Fold → Fold) : (s.modFold pf g).regs = s.regs := rfl
@[simp] theorem State.modFold_frame (pf : Nat) (g : Fold → Fold) : (s.modFold pf g).frame = s.frame := rfl
@[simp] theorem State.modFold_eng (pf : Nat) (g : Fold → Fold) : (s.modFold pf g).eng = s.eng := rfl
@[simp] theorem State.modFold_ldr (pf : Nat) (g : Fold → Fold) : (s.modFold pf g).ldr = s.ldr := rfl
@[simp] theorem State.modFold_mem (pf : Nat) (g : Fold → Fold) : (s.modFold pf g).mem = s.mem := rfl
@[simp] theorem State.modFold_ecc (pf : Nat) (g : Fold → Fold) : (s.modFold pf g).ecc = s.ecc := rfl
@[simp] theorem State.modFold_banks (pf : Nat) (g : Fold → Fold) : (s.modFold pf g).banks = s.banks := rfl
@[simp] theorem State.modFold_dw (pf : Nat) (g : Fold → Fold) : (s.modFold pf g).dw = s.dw := rfl
@[simp] theorem State.modFold_lanes (pf : Nat) (g : Fold → Fold) : (s.modFold pf g).lanes = s.lanes := rfl
@[simp] theorem State.modFold_evt (pf : Nat) (g : Fold → Fold) : (s.modFold pf g).evt = s.evt := rfl
@[simp] theorem State.modFold_host (pf : Nat) (g : Fold → Fold) : (s.modFold pf g).host = s.host := rfl
@[simp] theorem State.modFold_cairn (pf : Nat) (g : Fold → Fold) : (s.modFold pf g).cairn = s.cairn := rfl
@[simp] theorem State.modFold_edge (pf : Nat) (g : Fold → Fold) : (s.modFold pf g).edge = s.edge := rfl
@[simp] theorem State.modFold_hub (pf : Nat) (g : Fold → Fold) : (s.modFold pf g).hub = s.hub := rfl

/-! `modSeq` changes `arr` alone. -/

@[simp] theorem State.modSeq_pending (pf : Nat) (g : Seq → Seq) : (s.modSeq pf g).pending = s.pending := rfl
@[simp] theorem State.modSeq_out (pf : Nat) (g : Seq → Seq) : (s.modSeq pf g).out = s.out := rfl
@[simp] theorem State.modSeq_freeCount (pf : Nat) (g : Seq → Seq) : (s.modSeq pf g).freeCount = s.freeCount := rfl
@[simp] theorem State.modSeq_mode (pf : Nat) (g : Seq → Seq) : (s.modSeq pf g).mode = s.mode := rfl
@[simp] theorem State.modSeq_phase (pf : Nat) (g : Seq → Seq) : (s.modSeq pf g).phase = s.phase := rfl
@[simp] theorem State.modSeq_fwVer (pf : Nat) (g : Seq → Seq) : (s.modSeq pf g).fwVer = s.fwVer := rfl
@[simp] theorem State.modSeq_regs (pf : Nat) (g : Seq → Seq) : (s.modSeq pf g).regs = s.regs := rfl
@[simp] theorem State.modSeq_frame (pf : Nat) (g : Seq → Seq) : (s.modSeq pf g).frame = s.frame := rfl
@[simp] theorem State.modSeq_eng (pf : Nat) (g : Seq → Seq) : (s.modSeq pf g).eng = s.eng := rfl
@[simp] theorem State.modSeq_ldr (pf : Nat) (g : Seq → Seq) : (s.modSeq pf g).ldr = s.ldr := rfl
@[simp] theorem State.modSeq_mem (pf : Nat) (g : Seq → Seq) : (s.modSeq pf g).mem = s.mem := rfl
@[simp] theorem State.modSeq_ecc (pf : Nat) (g : Seq → Seq) : (s.modSeq pf g).ecc = s.ecc := rfl
@[simp] theorem State.modSeq_banks (pf : Nat) (g : Seq → Seq) : (s.modSeq pf g).banks = s.banks := rfl
@[simp] theorem State.modSeq_dw (pf : Nat) (g : Seq → Seq) : (s.modSeq pf g).dw = s.dw := rfl
@[simp] theorem State.modSeq_lanes (pf : Nat) (g : Seq → Seq) : (s.modSeq pf g).lanes = s.lanes := rfl
@[simp] theorem State.modSeq_evt (pf : Nat) (g : Seq → Seq) : (s.modSeq pf g).evt = s.evt := rfl
@[simp] theorem State.modSeq_host (pf : Nat) (g : Seq → Seq) : (s.modSeq pf g).host = s.host := rfl
@[simp] theorem State.modSeq_cairn (pf : Nat) (g : Seq → Seq) : (s.modSeq pf g).cairn = s.cairn := rfl
@[simp] theorem State.modSeq_edge (pf : Nat) (g : Seq → Seq) : (s.modSeq pf g).edge = s.edge := rfl
@[simp] theorem State.modSeq_hub (pf : Nat) (g : Seq → Seq) : (s.modSeq pf g).hub = s.hub := rfl

/-! `modPen` changes `arr` alone. -/

@[simp] theorem State.modPen_pending (first : Nat) (g : Pen → Pen) : (s.modPen first g).pending = s.pending := rfl
@[simp] theorem State.modPen_out (first : Nat) (g : Pen → Pen) : (s.modPen first g).out = s.out := rfl
@[simp] theorem State.modPen_freeCount (first : Nat) (g : Pen → Pen) : (s.modPen first g).freeCount = s.freeCount := rfl
@[simp] theorem State.modPen_mode (first : Nat) (g : Pen → Pen) : (s.modPen first g).mode = s.mode := rfl
@[simp] theorem State.modPen_phase (first : Nat) (g : Pen → Pen) : (s.modPen first g).phase = s.phase := rfl
@[simp] theorem State.modPen_fwVer (first : Nat) (g : Pen → Pen) : (s.modPen first g).fwVer = s.fwVer := rfl
@[simp] theorem State.modPen_regs (first : Nat) (g : Pen → Pen) : (s.modPen first g).regs = s.regs := rfl
@[simp] theorem State.modPen_frame (first : Nat) (g : Pen → Pen) : (s.modPen first g).frame = s.frame := rfl
@[simp] theorem State.modPen_eng (first : Nat) (g : Pen → Pen) : (s.modPen first g).eng = s.eng := rfl
@[simp] theorem State.modPen_ldr (first : Nat) (g : Pen → Pen) : (s.modPen first g).ldr = s.ldr := rfl
@[simp] theorem State.modPen_mem (first : Nat) (g : Pen → Pen) : (s.modPen first g).mem = s.mem := rfl
@[simp] theorem State.modPen_ecc (first : Nat) (g : Pen → Pen) : (s.modPen first g).ecc = s.ecc := rfl
@[simp] theorem State.modPen_banks (first : Nat) (g : Pen → Pen) : (s.modPen first g).banks = s.banks := rfl
@[simp] theorem State.modPen_dw (first : Nat) (g : Pen → Pen) : (s.modPen first g).dw = s.dw := rfl
@[simp] theorem State.modPen_lanes (first : Nat) (g : Pen → Pen) : (s.modPen first g).lanes = s.lanes := rfl
@[simp] theorem State.modPen_evt (first : Nat) (g : Pen → Pen) : (s.modPen first g).evt = s.evt := rfl
@[simp] theorem State.modPen_host (first : Nat) (g : Pen → Pen) : (s.modPen first g).host = s.host := rfl
@[simp] theorem State.modPen_cairn (first : Nat) (g : Pen → Pen) : (s.modPen first g).cairn = s.cairn := rfl
@[simp] theorem State.modPen_edge (first : Nat) (g : Pen → Pen) : (s.modPen first g).edge = s.edge := rfl
@[simp] theorem State.modPen_hub (first : Nat) (g : Pen → Pen) : (s.modPen first g).hub = s.hub := rfl

/-! `mapPens` changes `arr` alone. -/

@[simp] theorem State.mapPens_pending (g : Pen → Pen) : (s.mapPens g).pending = s.pending := rfl
@[simp] theorem State.mapPens_out (g : Pen → Pen) : (s.mapPens g).out = s.out := rfl
@[simp] theorem State.mapPens_freeCount (g : Pen → Pen) : (s.mapPens g).freeCount = s.freeCount := rfl
@[simp] theorem State.mapPens_mode (g : Pen → Pen) : (s.mapPens g).mode = s.mode := rfl
@[simp] theorem State.mapPens_phase (g : Pen → Pen) : (s.mapPens g).phase = s.phase := rfl
@[simp] theorem State.mapPens_fwVer (g : Pen → Pen) : (s.mapPens g).fwVer = s.fwVer := rfl
@[simp] theorem State.mapPens_regs (g : Pen → Pen) : (s.mapPens g).regs = s.regs := rfl
@[simp] theorem State.mapPens_frame (g : Pen → Pen) : (s.mapPens g).frame = s.frame := rfl
@[simp] theorem State.mapPens_eng (g : Pen → Pen) : (s.mapPens g).eng = s.eng := rfl
@[simp] theorem State.mapPens_ldr (g : Pen → Pen) : (s.mapPens g).ldr = s.ldr := rfl
@[simp] theorem State.mapPens_mem (g : Pen → Pen) : (s.mapPens g).mem = s.mem := rfl
@[simp] theorem State.mapPens_ecc (g : Pen → Pen) : (s.mapPens g).ecc = s.ecc := rfl
@[simp] theorem State.mapPens_banks (g : Pen → Pen) : (s.mapPens g).banks = s.banks := rfl
@[simp] theorem State.mapPens_dw (g : Pen → Pen) : (s.mapPens g).dw = s.dw := rfl
@[simp] theorem State.mapPens_lanes (g : Pen → Pen) : (s.mapPens g).lanes = s.lanes := rfl
@[simp] theorem State.mapPens_evt (g : Pen → Pen) : (s.mapPens g).evt = s.evt := rfl
@[simp] theorem State.mapPens_host (g : Pen → Pen) : (s.mapPens g).host = s.host := rfl
@[simp] theorem State.mapPens_cairn (g : Pen → Pen) : (s.mapPens g).cairn = s.cairn := rfl
@[simp] theorem State.mapPens_edge (g : Pen → Pen) : (s.mapPens g).edge = s.edge := rfl
@[simp] theorem State.mapPens_hub (g : Pen → Pen) : (s.mapPens g).hub = s.hub := rfl

/-! `modBank` changes `banks` alone. -/

@[simp] theorem State.modBank_pending (b : Nat) (g : Bank → Bank) : (s.modBank b g).pending = s.pending := rfl
@[simp] theorem State.modBank_out (b : Nat) (g : Bank → Bank) : (s.modBank b g).out = s.out := rfl
@[simp] theorem State.modBank_freeCount (b : Nat) (g : Bank → Bank) : (s.modBank b g).freeCount = s.freeCount := rfl
@[simp] theorem State.modBank_mode (b : Nat) (g : Bank → Bank) : (s.modBank b g).mode = s.mode := rfl
@[simp] theorem State.modBank_phase (b : Nat) (g : Bank → Bank) : (s.modBank b g).phase = s.phase := rfl
@[simp] theorem State.modBank_fwVer (b : Nat) (g : Bank → Bank) : (s.modBank b g).fwVer = s.fwVer := rfl
@[simp] theorem State.modBank_regs (b : Nat) (g : Bank → Bank) : (s.modBank b g).regs = s.regs := rfl
@[simp] theorem State.modBank_frame (b : Nat) (g : Bank → Bank) : (s.modBank b g).frame = s.frame := rfl
@[simp] theorem State.modBank_arr (b : Nat) (g : Bank → Bank) : (s.modBank b g).arr = s.arr := rfl
@[simp] theorem State.modBank_eng (b : Nat) (g : Bank → Bank) : (s.modBank b g).eng = s.eng := rfl
@[simp] theorem State.modBank_ldr (b : Nat) (g : Bank → Bank) : (s.modBank b g).ldr = s.ldr := rfl
@[simp] theorem State.modBank_mem (b : Nat) (g : Bank → Bank) : (s.modBank b g).mem = s.mem := rfl
@[simp] theorem State.modBank_ecc (b : Nat) (g : Bank → Bank) : (s.modBank b g).ecc = s.ecc := rfl
@[simp] theorem State.modBank_dw (b : Nat) (g : Bank → Bank) : (s.modBank b g).dw = s.dw := rfl
@[simp] theorem State.modBank_lanes (b : Nat) (g : Bank → Bank) : (s.modBank b g).lanes = s.lanes := rfl
@[simp] theorem State.modBank_evt (b : Nat) (g : Bank → Bank) : (s.modBank b g).evt = s.evt := rfl
@[simp] theorem State.modBank_host (b : Nat) (g : Bank → Bank) : (s.modBank b g).host = s.host := rfl
@[simp] theorem State.modBank_cairn (b : Nat) (g : Bank → Bank) : (s.modBank b g).cairn = s.cairn := rfl
@[simp] theorem State.modBank_edge (b : Nat) (g : Bank → Bank) : (s.modBank b g).edge = s.edge := rfl
@[simp] theorem State.modBank_hub (b : Nat) (g : Bank → Bank) : (s.modBank b g).hub = s.hub := rfl

/-! `modEng` changes `eng` alone. -/

@[simp] theorem State.modEng_pending (e : Nat) (g : Engine → Engine) : (s.modEng e g).pending = s.pending := rfl
@[simp] theorem State.modEng_out (e : Nat) (g : Engine → Engine) : (s.modEng e g).out = s.out := rfl
@[simp] theorem State.modEng_freeCount (e : Nat) (g : Engine → Engine) : (s.modEng e g).freeCount = s.freeCount := rfl
@[simp] theorem State.modEng_mode (e : Nat) (g : Engine → Engine) : (s.modEng e g).mode = s.mode := rfl
@[simp] theorem State.modEng_phase (e : Nat) (g : Engine → Engine) : (s.modEng e g).phase = s.phase := rfl
@[simp] theorem State.modEng_fwVer (e : Nat) (g : Engine → Engine) : (s.modEng e g).fwVer = s.fwVer := rfl
@[simp] theorem State.modEng_regs (e : Nat) (g : Engine → Engine) : (s.modEng e g).regs = s.regs := rfl
@[simp] theorem State.modEng_frame (e : Nat) (g : Engine → Engine) : (s.modEng e g).frame = s.frame := rfl
@[simp] theorem State.modEng_arr (e : Nat) (g : Engine → Engine) : (s.modEng e g).arr = s.arr := rfl
@[simp] theorem State.modEng_ldr (e : Nat) (g : Engine → Engine) : (s.modEng e g).ldr = s.ldr := rfl
@[simp] theorem State.modEng_mem (e : Nat) (g : Engine → Engine) : (s.modEng e g).mem = s.mem := rfl
@[simp] theorem State.modEng_ecc (e : Nat) (g : Engine → Engine) : (s.modEng e g).ecc = s.ecc := rfl
@[simp] theorem State.modEng_banks (e : Nat) (g : Engine → Engine) : (s.modEng e g).banks = s.banks := rfl
@[simp] theorem State.modEng_dw (e : Nat) (g : Engine → Engine) : (s.modEng e g).dw = s.dw := rfl
@[simp] theorem State.modEng_lanes (e : Nat) (g : Engine → Engine) : (s.modEng e g).lanes = s.lanes := rfl
@[simp] theorem State.modEng_evt (e : Nat) (g : Engine → Engine) : (s.modEng e g).evt = s.evt := rfl
@[simp] theorem State.modEng_host (e : Nat) (g : Engine → Engine) : (s.modEng e g).host = s.host := rfl
@[simp] theorem State.modEng_cairn (e : Nat) (g : Engine → Engine) : (s.modEng e g).cairn = s.cairn := rfl
@[simp] theorem State.modEng_edge (e : Nat) (g : Engine → Engine) : (s.modEng e g).edge = s.edge := rfl
@[simp] theorem State.modEng_hub (e : Nat) (g : Engine → Engine) : (s.modEng e g).hub = s.hub := rfl

/-! `modLane` changes `lanes` alone. -/

@[simp] theorem State.modLane_pending (l : Nat) (g : Lane → Lane) : (s.modLane l g).pending = s.pending := rfl
@[simp] theorem State.modLane_out (l : Nat) (g : Lane → Lane) : (s.modLane l g).out = s.out := rfl
@[simp] theorem State.modLane_freeCount (l : Nat) (g : Lane → Lane) : (s.modLane l g).freeCount = s.freeCount := rfl
@[simp] theorem State.modLane_mode (l : Nat) (g : Lane → Lane) : (s.modLane l g).mode = s.mode := rfl
@[simp] theorem State.modLane_phase (l : Nat) (g : Lane → Lane) : (s.modLane l g).phase = s.phase := rfl
@[simp] theorem State.modLane_fwVer (l : Nat) (g : Lane → Lane) : (s.modLane l g).fwVer = s.fwVer := rfl
@[simp] theorem State.modLane_regs (l : Nat) (g : Lane → Lane) : (s.modLane l g).regs = s.regs := rfl
@[simp] theorem State.modLane_frame (l : Nat) (g : Lane → Lane) : (s.modLane l g).frame = s.frame := rfl
@[simp] theorem State.modLane_arr (l : Nat) (g : Lane → Lane) : (s.modLane l g).arr = s.arr := rfl
@[simp] theorem State.modLane_eng (l : Nat) (g : Lane → Lane) : (s.modLane l g).eng = s.eng := rfl
@[simp] theorem State.modLane_ldr (l : Nat) (g : Lane → Lane) : (s.modLane l g).ldr = s.ldr := rfl
@[simp] theorem State.modLane_mem (l : Nat) (g : Lane → Lane) : (s.modLane l g).mem = s.mem := rfl
@[simp] theorem State.modLane_ecc (l : Nat) (g : Lane → Lane) : (s.modLane l g).ecc = s.ecc := rfl
@[simp] theorem State.modLane_banks (l : Nat) (g : Lane → Lane) : (s.modLane l g).banks = s.banks := rfl
@[simp] theorem State.modLane_dw (l : Nat) (g : Lane → Lane) : (s.modLane l g).dw = s.dw := rfl
@[simp] theorem State.modLane_evt (l : Nat) (g : Lane → Lane) : (s.modLane l g).evt = s.evt := rfl
@[simp] theorem State.modLane_host (l : Nat) (g : Lane → Lane) : (s.modLane l g).host = s.host := rfl
@[simp] theorem State.modLane_cairn (l : Nat) (g : Lane → Lane) : (s.modLane l g).cairn = s.cairn := rfl
@[simp] theorem State.modLane_edge (l : Nat) (g : Lane → Lane) : (s.modLane l g).edge = s.edge := rfl
@[simp] theorem State.modLane_hub (l : Nat) (g : Lane → Lane) : (s.modLane l g).hub = s.hub := rfl

/-! `modDma` changes `host` alone. -/

@[simp] theorem State.modDma_pending (c : Nat) (g : Dma → Dma) : (s.modDma c g).pending = s.pending := rfl
@[simp] theorem State.modDma_out (c : Nat) (g : Dma → Dma) : (s.modDma c g).out = s.out := rfl
@[simp] theorem State.modDma_freeCount (c : Nat) (g : Dma → Dma) : (s.modDma c g).freeCount = s.freeCount := rfl
@[simp] theorem State.modDma_mode (c : Nat) (g : Dma → Dma) : (s.modDma c g).mode = s.mode := rfl
@[simp] theorem State.modDma_phase (c : Nat) (g : Dma → Dma) : (s.modDma c g).phase = s.phase := rfl
@[simp] theorem State.modDma_fwVer (c : Nat) (g : Dma → Dma) : (s.modDma c g).fwVer = s.fwVer := rfl
@[simp] theorem State.modDma_regs (c : Nat) (g : Dma → Dma) : (s.modDma c g).regs = s.regs := rfl
@[simp] theorem State.modDma_frame (c : Nat) (g : Dma → Dma) : (s.modDma c g).frame = s.frame := rfl
@[simp] theorem State.modDma_arr (c : Nat) (g : Dma → Dma) : (s.modDma c g).arr = s.arr := rfl
@[simp] theorem State.modDma_eng (c : Nat) (g : Dma → Dma) : (s.modDma c g).eng = s.eng := rfl
@[simp] theorem State.modDma_ldr (c : Nat) (g : Dma → Dma) : (s.modDma c g).ldr = s.ldr := rfl
@[simp] theorem State.modDma_mem (c : Nat) (g : Dma → Dma) : (s.modDma c g).mem = s.mem := rfl
@[simp] theorem State.modDma_ecc (c : Nat) (g : Dma → Dma) : (s.modDma c g).ecc = s.ecc := rfl
@[simp] theorem State.modDma_banks (c : Nat) (g : Dma → Dma) : (s.modDma c g).banks = s.banks := rfl
@[simp] theorem State.modDma_dw (c : Nat) (g : Dma → Dma) : (s.modDma c g).dw = s.dw := rfl
@[simp] theorem State.modDma_lanes (c : Nat) (g : Dma → Dma) : (s.modDma c g).lanes = s.lanes := rfl
@[simp] theorem State.modDma_evt (c : Nat) (g : Dma → Dma) : (s.modDma c g).evt = s.evt := rfl
@[simp] theorem State.modDma_cairn (c : Nat) (g : Dma → Dma) : (s.modDma c g).cairn = s.cairn := rfl
@[simp] theorem State.modDma_edge (c : Nat) (g : Dma → Dma) : (s.modDma c g).edge = s.edge := rfl
@[simp] theorem State.modDma_hub (c : Nat) (g : Dma → Dma) : (s.modDma c g).hub = s.hub := rfl

/-! `modNic` changes `host` alone. -/

@[simp] theorem State.modNic_pending (l : Nat) (g : Nic → Nic) : (s.modNic l g).pending = s.pending := rfl
@[simp] theorem State.modNic_out (l : Nat) (g : Nic → Nic) : (s.modNic l g).out = s.out := rfl
@[simp] theorem State.modNic_freeCount (l : Nat) (g : Nic → Nic) : (s.modNic l g).freeCount = s.freeCount := rfl
@[simp] theorem State.modNic_mode (l : Nat) (g : Nic → Nic) : (s.modNic l g).mode = s.mode := rfl
@[simp] theorem State.modNic_phase (l : Nat) (g : Nic → Nic) : (s.modNic l g).phase = s.phase := rfl
@[simp] theorem State.modNic_fwVer (l : Nat) (g : Nic → Nic) : (s.modNic l g).fwVer = s.fwVer := rfl
@[simp] theorem State.modNic_regs (l : Nat) (g : Nic → Nic) : (s.modNic l g).regs = s.regs := rfl
@[simp] theorem State.modNic_frame (l : Nat) (g : Nic → Nic) : (s.modNic l g).frame = s.frame := rfl
@[simp] theorem State.modNic_arr (l : Nat) (g : Nic → Nic) : (s.modNic l g).arr = s.arr := rfl
@[simp] theorem State.modNic_eng (l : Nat) (g : Nic → Nic) : (s.modNic l g).eng = s.eng := rfl
@[simp] theorem State.modNic_ldr (l : Nat) (g : Nic → Nic) : (s.modNic l g).ldr = s.ldr := rfl
@[simp] theorem State.modNic_mem (l : Nat) (g : Nic → Nic) : (s.modNic l g).mem = s.mem := rfl
@[simp] theorem State.modNic_ecc (l : Nat) (g : Nic → Nic) : (s.modNic l g).ecc = s.ecc := rfl
@[simp] theorem State.modNic_banks (l : Nat) (g : Nic → Nic) : (s.modNic l g).banks = s.banks := rfl
@[simp] theorem State.modNic_dw (l : Nat) (g : Nic → Nic) : (s.modNic l g).dw = s.dw := rfl
@[simp] theorem State.modNic_lanes (l : Nat) (g : Nic → Nic) : (s.modNic l g).lanes = s.lanes := rfl
@[simp] theorem State.modNic_evt (l : Nat) (g : Nic → Nic) : (s.modNic l g).evt = s.evt := rfl
@[simp] theorem State.modNic_cairn (l : Nat) (g : Nic → Nic) : (s.modNic l g).cairn = s.cairn := rfl
@[simp] theorem State.modNic_edge (l : Nat) (g : Nic → Nic) : (s.modNic l g).edge = s.edge := rfl
@[simp] theorem State.modNic_hub (l : Nat) (g : Nic → Nic) : (s.modNic l g).hub = s.hub := rfl

/-! `modFw` changes `hub` alone. -/

@[simp] theorem State.modFw_pending (g : Firmware → Firmware) : (s.modFw g).pending = s.pending := rfl
@[simp] theorem State.modFw_out (g : Firmware → Firmware) : (s.modFw g).out = s.out := rfl
@[simp] theorem State.modFw_freeCount (g : Firmware → Firmware) : (s.modFw g).freeCount = s.freeCount := rfl
@[simp] theorem State.modFw_mode (g : Firmware → Firmware) : (s.modFw g).mode = s.mode := rfl
@[simp] theorem State.modFw_phase (g : Firmware → Firmware) : (s.modFw g).phase = s.phase := rfl
@[simp] theorem State.modFw_fwVer (g : Firmware → Firmware) : (s.modFw g).fwVer = s.fwVer := rfl
@[simp] theorem State.modFw_regs (g : Firmware → Firmware) : (s.modFw g).regs = s.regs := rfl
@[simp] theorem State.modFw_frame (g : Firmware → Firmware) : (s.modFw g).frame = s.frame := rfl
@[simp] theorem State.modFw_arr (g : Firmware → Firmware) : (s.modFw g).arr = s.arr := rfl
@[simp] theorem State.modFw_eng (g : Firmware → Firmware) : (s.modFw g).eng = s.eng := rfl
@[simp] theorem State.modFw_ldr (g : Firmware → Firmware) : (s.modFw g).ldr = s.ldr := rfl
@[simp] theorem State.modFw_mem (g : Firmware → Firmware) : (s.modFw g).mem = s.mem := rfl
@[simp] theorem State.modFw_ecc (g : Firmware → Firmware) : (s.modFw g).ecc = s.ecc := rfl
@[simp] theorem State.modFw_banks (g : Firmware → Firmware) : (s.modFw g).banks = s.banks := rfl
@[simp] theorem State.modFw_dw (g : Firmware → Firmware) : (s.modFw g).dw = s.dw := rfl
@[simp] theorem State.modFw_lanes (g : Firmware → Firmware) : (s.modFw g).lanes = s.lanes := rfl
@[simp] theorem State.modFw_evt (g : Firmware → Firmware) : (s.modFw g).evt = s.evt := rfl
@[simp] theorem State.modFw_host (g : Firmware → Firmware) : (s.modFw g).host = s.host := rfl
@[simp] theorem State.modFw_cairn (g : Firmware → Firmware) : (s.modFw g).cairn = s.cairn := rfl
@[simp] theorem State.modFw_edge (g : Firmware → Firmware) : (s.modFw g).edge = s.edge := rfl

/-! `modPres` changes `hub` alone. -/

@[simp] theorem State.modPres_pending (g : Presence → Presence) : (s.modPres g).pending = s.pending := rfl
@[simp] theorem State.modPres_out (g : Presence → Presence) : (s.modPres g).out = s.out := rfl
@[simp] theorem State.modPres_freeCount (g : Presence → Presence) : (s.modPres g).freeCount = s.freeCount := rfl
@[simp] theorem State.modPres_mode (g : Presence → Presence) : (s.modPres g).mode = s.mode := rfl
@[simp] theorem State.modPres_phase (g : Presence → Presence) : (s.modPres g).phase = s.phase := rfl
@[simp] theorem State.modPres_fwVer (g : Presence → Presence) : (s.modPres g).fwVer = s.fwVer := rfl
@[simp] theorem State.modPres_regs (g : Presence → Presence) : (s.modPres g).regs = s.regs := rfl
@[simp] theorem State.modPres_frame (g : Presence → Presence) : (s.modPres g).frame = s.frame := rfl
@[simp] theorem State.modPres_arr (g : Presence → Presence) : (s.modPres g).arr = s.arr := rfl
@[simp] theorem State.modPres_eng (g : Presence → Presence) : (s.modPres g).eng = s.eng := rfl
@[simp] theorem State.modPres_ldr (g : Presence → Presence) : (s.modPres g).ldr = s.ldr := rfl
@[simp] theorem State.modPres_mem (g : Presence → Presence) : (s.modPres g).mem = s.mem := rfl
@[simp] theorem State.modPres_ecc (g : Presence → Presence) : (s.modPres g).ecc = s.ecc := rfl
@[simp] theorem State.modPres_banks (g : Presence → Presence) : (s.modPres g).banks = s.banks := rfl
@[simp] theorem State.modPres_dw (g : Presence → Presence) : (s.modPres g).dw = s.dw := rfl
@[simp] theorem State.modPres_lanes (g : Presence → Presence) : (s.modPres g).lanes = s.lanes := rfl
@[simp] theorem State.modPres_evt (g : Presence → Presence) : (s.modPres g).evt = s.evt := rfl
@[simp] theorem State.modPres_host (g : Presence → Presence) : (s.modPres g).host = s.host := rfl
@[simp] theorem State.modPres_cairn (g : Presence → Presence) : (s.modPres g).cairn = s.cairn := rfl
@[simp] theorem State.modPres_edge (g : Presence → Presence) : (s.modPres g).edge = s.edge := rfl

/-! `setSlot` changes `ldr` alone. -/

@[simp] theorem State.setSlot_pending (i : Fin 3) (x : Slot) : (s.setSlot i x).pending = s.pending := rfl
@[simp] theorem State.setSlot_out (i : Fin 3) (x : Slot) : (s.setSlot i x).out = s.out := rfl
@[simp] theorem State.setSlot_freeCount (i : Fin 3) (x : Slot) : (s.setSlot i x).freeCount = s.freeCount := rfl
@[simp] theorem State.setSlot_mode (i : Fin 3) (x : Slot) : (s.setSlot i x).mode = s.mode := rfl
@[simp] theorem State.setSlot_phase (i : Fin 3) (x : Slot) : (s.setSlot i x).phase = s.phase := rfl
@[simp] theorem State.setSlot_fwVer (i : Fin 3) (x : Slot) : (s.setSlot i x).fwVer = s.fwVer := rfl
@[simp] theorem State.setSlot_regs (i : Fin 3) (x : Slot) : (s.setSlot i x).regs = s.regs := rfl
@[simp] theorem State.setSlot_frame (i : Fin 3) (x : Slot) : (s.setSlot i x).frame = s.frame := rfl
@[simp] theorem State.setSlot_arr (i : Fin 3) (x : Slot) : (s.setSlot i x).arr = s.arr := rfl
@[simp] theorem State.setSlot_eng (i : Fin 3) (x : Slot) : (s.setSlot i x).eng = s.eng := rfl
@[simp] theorem State.setSlot_mem (i : Fin 3) (x : Slot) : (s.setSlot i x).mem = s.mem := rfl
@[simp] theorem State.setSlot_ecc (i : Fin 3) (x : Slot) : (s.setSlot i x).ecc = s.ecc := rfl
@[simp] theorem State.setSlot_banks (i : Fin 3) (x : Slot) : (s.setSlot i x).banks = s.banks := rfl
@[simp] theorem State.setSlot_dw (i : Fin 3) (x : Slot) : (s.setSlot i x).dw = s.dw := rfl
@[simp] theorem State.setSlot_lanes (i : Fin 3) (x : Slot) : (s.setSlot i x).lanes = s.lanes := rfl
@[simp] theorem State.setSlot_evt (i : Fin 3) (x : Slot) : (s.setSlot i x).evt = s.evt := rfl
@[simp] theorem State.setSlot_host (i : Fin 3) (x : Slot) : (s.setSlot i x).host = s.host := rfl
@[simp] theorem State.setSlot_cairn (i : Fin 3) (x : Slot) : (s.setSlot i x).cairn = s.cairn := rfl
@[simp] theorem State.setSlot_edge (i : Fin 3) (x : Slot) : (s.setSlot i x).edge = s.edge := rfl
@[simp] theorem State.setSlot_hub (i : Fin 3) (x : Slot) : (s.setSlot i x).hub = s.hub := rfl

/-! `setQueue` changes `dw` alone. -/

@[simp] theorem State.setQueue_pending (n : Nat) (net : Net) (p t : Nat) (l : List Queued) : (s.setQueue n net p t l).pending = s.pending := rfl
@[simp] theorem State.setQueue_out (n : Nat) (net : Net) (p t : Nat) (l : List Queued) : (s.setQueue n net p t l).out = s.out := rfl
@[simp] theorem State.setQueue_freeCount (n : Nat) (net : Net) (p t : Nat) (l : List Queued) : (s.setQueue n net p t l).freeCount = s.freeCount := rfl
@[simp] theorem State.setQueue_mode (n : Nat) (net : Net) (p t : Nat) (l : List Queued) : (s.setQueue n net p t l).mode = s.mode := rfl
@[simp] theorem State.setQueue_phase (n : Nat) (net : Net) (p t : Nat) (l : List Queued) : (s.setQueue n net p t l).phase = s.phase := rfl
@[simp] theorem State.setQueue_fwVer (n : Nat) (net : Net) (p t : Nat) (l : List Queued) : (s.setQueue n net p t l).fwVer = s.fwVer := rfl
@[simp] theorem State.setQueue_regs (n : Nat) (net : Net) (p t : Nat) (l : List Queued) : (s.setQueue n net p t l).regs = s.regs := rfl
@[simp] theorem State.setQueue_frame (n : Nat) (net : Net) (p t : Nat) (l : List Queued) : (s.setQueue n net p t l).frame = s.frame := rfl
@[simp] theorem State.setQueue_arr (n : Nat) (net : Net) (p t : Nat) (l : List Queued) : (s.setQueue n net p t l).arr = s.arr := rfl
@[simp] theorem State.setQueue_eng (n : Nat) (net : Net) (p t : Nat) (l : List Queued) : (s.setQueue n net p t l).eng = s.eng := rfl
@[simp] theorem State.setQueue_ldr (n : Nat) (net : Net) (p t : Nat) (l : List Queued) : (s.setQueue n net p t l).ldr = s.ldr := rfl
@[simp] theorem State.setQueue_mem (n : Nat) (net : Net) (p t : Nat) (l : List Queued) : (s.setQueue n net p t l).mem = s.mem := rfl
@[simp] theorem State.setQueue_ecc (n : Nat) (net : Net) (p t : Nat) (l : List Queued) : (s.setQueue n net p t l).ecc = s.ecc := rfl
@[simp] theorem State.setQueue_banks (n : Nat) (net : Net) (p t : Nat) (l : List Queued) : (s.setQueue n net p t l).banks = s.banks := rfl
@[simp] theorem State.setQueue_lanes (n : Nat) (net : Net) (p t : Nat) (l : List Queued) : (s.setQueue n net p t l).lanes = s.lanes := rfl
@[simp] theorem State.setQueue_evt (n : Nat) (net : Net) (p t : Nat) (l : List Queued) : (s.setQueue n net p t l).evt = s.evt := rfl
@[simp] theorem State.setQueue_host (n : Nat) (net : Net) (p t : Nat) (l : List Queued) : (s.setQueue n net p t l).host = s.host := rfl
@[simp] theorem State.setQueue_cairn (n : Nat) (net : Net) (p t : Nat) (l : List Queued) : (s.setQueue n net p t l).cairn = s.cairn := rfl
@[simp] theorem State.setQueue_edge (n : Nat) (net : Net) (p t : Nat) (l : List Queued) : (s.setQueue n net p t l).edge = s.edge := rfl
@[simp] theorem State.setQueue_hub (n : Nat) (net : Net) (p t : Nat) (l : List Queued) : (s.setQueue n net p t l).hub = s.hub := rfl

/-! `raise` changes `regs` and `evt` alone. -/

@[simp] theorem State.raise_pending (n : RegName) (i : Nat) (m : Word) : (s.raise n i m).pending = s.pending := rfl
@[simp] theorem State.raise_out (n : RegName) (i : Nat) (m : Word) : (s.raise n i m).out = s.out := rfl
@[simp] theorem State.raise_freeCount (n : RegName) (i : Nat) (m : Word) : (s.raise n i m).freeCount = s.freeCount := rfl
@[simp] theorem State.raise_mode (n : RegName) (i : Nat) (m : Word) : (s.raise n i m).mode = s.mode := rfl
@[simp] theorem State.raise_phase (n : RegName) (i : Nat) (m : Word) : (s.raise n i m).phase = s.phase := rfl
@[simp] theorem State.raise_fwVer (n : RegName) (i : Nat) (m : Word) : (s.raise n i m).fwVer = s.fwVer := rfl
@[simp] theorem State.raise_frame (n : RegName) (i : Nat) (m : Word) : (s.raise n i m).frame = s.frame := rfl
@[simp] theorem State.raise_arr (n : RegName) (i : Nat) (m : Word) : (s.raise n i m).arr = s.arr := rfl
@[simp] theorem State.raise_eng (n : RegName) (i : Nat) (m : Word) : (s.raise n i m).eng = s.eng := rfl
@[simp] theorem State.raise_ldr (n : RegName) (i : Nat) (m : Word) : (s.raise n i m).ldr = s.ldr := rfl
@[simp] theorem State.raise_mem (n : RegName) (i : Nat) (m : Word) : (s.raise n i m).mem = s.mem := rfl
@[simp] theorem State.raise_ecc (n : RegName) (i : Nat) (m : Word) : (s.raise n i m).ecc = s.ecc := rfl
@[simp] theorem State.raise_banks (n : RegName) (i : Nat) (m : Word) : (s.raise n i m).banks = s.banks := rfl
@[simp] theorem State.raise_dw (n : RegName) (i : Nat) (m : Word) : (s.raise n i m).dw = s.dw := rfl
@[simp] theorem State.raise_lanes (n : RegName) (i : Nat) (m : Word) : (s.raise n i m).lanes = s.lanes := rfl
@[simp] theorem State.raise_host (n : RegName) (i : Nat) (m : Word) : (s.raise n i m).host = s.host := rfl
@[simp] theorem State.raise_cairn (n : RegName) (i : Nat) (m : Word) : (s.raise n i m).cairn = s.cairn := rfl
@[simp] theorem State.raise_edge (n : RegName) (i : Nat) (m : Word) : (s.raise n i m).edge = s.edge := rfl
@[simp] theorem State.raise_hub (n : RegName) (i : Nat) (m : Word) : (s.raise n i m).hub = s.hub := rfl

/-! `raiseAgain` changes `evt` alone. -/

@[simp] theorem State.raiseAgain_pending (n : RegName) (i : Nat) (v : Word) : (s.raiseAgain n i v).pending = s.pending := rfl
@[simp] theorem State.raiseAgain_out (n : RegName) (i : Nat) (v : Word) : (s.raiseAgain n i v).out = s.out := rfl
@[simp] theorem State.raiseAgain_freeCount (n : RegName) (i : Nat) (v : Word) : (s.raiseAgain n i v).freeCount = s.freeCount := rfl
@[simp] theorem State.raiseAgain_mode (n : RegName) (i : Nat) (v : Word) : (s.raiseAgain n i v).mode = s.mode := rfl
@[simp] theorem State.raiseAgain_phase (n : RegName) (i : Nat) (v : Word) : (s.raiseAgain n i v).phase = s.phase := rfl
@[simp] theorem State.raiseAgain_fwVer (n : RegName) (i : Nat) (v : Word) : (s.raiseAgain n i v).fwVer = s.fwVer := rfl
@[simp] theorem State.raiseAgain_regs (n : RegName) (i : Nat) (v : Word) : (s.raiseAgain n i v).regs = s.regs := rfl
@[simp] theorem State.raiseAgain_frame (n : RegName) (i : Nat) (v : Word) : (s.raiseAgain n i v).frame = s.frame := rfl
@[simp] theorem State.raiseAgain_arr (n : RegName) (i : Nat) (v : Word) : (s.raiseAgain n i v).arr = s.arr := rfl
@[simp] theorem State.raiseAgain_eng (n : RegName) (i : Nat) (v : Word) : (s.raiseAgain n i v).eng = s.eng := rfl
@[simp] theorem State.raiseAgain_ldr (n : RegName) (i : Nat) (v : Word) : (s.raiseAgain n i v).ldr = s.ldr := rfl
@[simp] theorem State.raiseAgain_mem (n : RegName) (i : Nat) (v : Word) : (s.raiseAgain n i v).mem = s.mem := rfl
@[simp] theorem State.raiseAgain_ecc (n : RegName) (i : Nat) (v : Word) : (s.raiseAgain n i v).ecc = s.ecc := rfl
@[simp] theorem State.raiseAgain_banks (n : RegName) (i : Nat) (v : Word) : (s.raiseAgain n i v).banks = s.banks := rfl
@[simp] theorem State.raiseAgain_dw (n : RegName) (i : Nat) (v : Word) : (s.raiseAgain n i v).dw = s.dw := rfl
@[simp] theorem State.raiseAgain_lanes (n : RegName) (i : Nat) (v : Word) : (s.raiseAgain n i v).lanes = s.lanes := rfl
@[simp] theorem State.raiseAgain_host (n : RegName) (i : Nat) (v : Word) : (s.raiseAgain n i v).host = s.host := rfl
@[simp] theorem State.raiseAgain_cairn (n : RegName) (i : Nat) (v : Word) : (s.raiseAgain n i v).cairn = s.cairn := rfl
@[simp] theorem State.raiseAgain_edge (n : RegName) (i : Nat) (v : Word) : (s.raiseAgain n i v).edge = s.edge := rfl
@[simp] theorem State.raiseAgain_hub (n : RegName) (i : Nat) (v : Word) : (s.raiseAgain n i v).hub = s.hub := rfl

/-! `modRun` changes `host` alone. -/

@[simp] theorem State.modRun_pending (c i : Nat) (g : DmaRun → DmaRun) : (s.modRun c i g).pending = s.pending := rfl
@[simp] theorem State.modRun_out (c i : Nat) (g : DmaRun → DmaRun) : (s.modRun c i g).out = s.out := rfl
@[simp] theorem State.modRun_freeCount (c i : Nat) (g : DmaRun → DmaRun) : (s.modRun c i g).freeCount = s.freeCount := rfl
@[simp] theorem State.modRun_mode (c i : Nat) (g : DmaRun → DmaRun) : (s.modRun c i g).mode = s.mode := rfl
@[simp] theorem State.modRun_phase (c i : Nat) (g : DmaRun → DmaRun) : (s.modRun c i g).phase = s.phase := rfl
@[simp] theorem State.modRun_fwVer (c i : Nat) (g : DmaRun → DmaRun) : (s.modRun c i g).fwVer = s.fwVer := rfl
@[simp] theorem State.modRun_regs (c i : Nat) (g : DmaRun → DmaRun) : (s.modRun c i g).regs = s.regs := rfl
@[simp] theorem State.modRun_frame (c i : Nat) (g : DmaRun → DmaRun) : (s.modRun c i g).frame = s.frame := rfl
@[simp] theorem State.modRun_arr (c i : Nat) (g : DmaRun → DmaRun) : (s.modRun c i g).arr = s.arr := rfl
@[simp] theorem State.modRun_eng (c i : Nat) (g : DmaRun → DmaRun) : (s.modRun c i g).eng = s.eng := rfl
@[simp] theorem State.modRun_ldr (c i : Nat) (g : DmaRun → DmaRun) : (s.modRun c i g).ldr = s.ldr := rfl
@[simp] theorem State.modRun_mem (c i : Nat) (g : DmaRun → DmaRun) : (s.modRun c i g).mem = s.mem := rfl
@[simp] theorem State.modRun_ecc (c i : Nat) (g : DmaRun → DmaRun) : (s.modRun c i g).ecc = s.ecc := rfl
@[simp] theorem State.modRun_banks (c i : Nat) (g : DmaRun → DmaRun) : (s.modRun c i g).banks = s.banks := rfl
@[simp] theorem State.modRun_dw (c i : Nat) (g : DmaRun → DmaRun) : (s.modRun c i g).dw = s.dw := rfl
@[simp] theorem State.modRun_lanes (c i : Nat) (g : DmaRun → DmaRun) : (s.modRun c i g).lanes = s.lanes := rfl
@[simp] theorem State.modRun_evt (c i : Nat) (g : DmaRun → DmaRun) : (s.modRun c i g).evt = s.evt := rfl
@[simp] theorem State.modRun_cairn (c i : Nat) (g : DmaRun → DmaRun) : (s.modRun c i g).cairn = s.cairn := rfl
@[simp] theorem State.modRun_edge (c i : Nat) (g : DmaRun → DmaRun) : (s.modRun c i g).edge = s.edge := rfl
@[simp] theorem State.modRun_hub (c i : Nat) (g : DmaRun → DmaRun) : (s.modRun c i g).hub = s.hub := rfl

/-! `modMove` changes `arr` alone. -/

@[simp] theorem State.modMove_pending (pf : Nat) (g : Move → Move) : (s.modMove pf g).pending = s.pending := rfl
@[simp] theorem State.modMove_out (pf : Nat) (g : Move → Move) : (s.modMove pf g).out = s.out := rfl
@[simp] theorem State.modMove_freeCount (pf : Nat) (g : Move → Move) : (s.modMove pf g).freeCount = s.freeCount := rfl
@[simp] theorem State.modMove_mode (pf : Nat) (g : Move → Move) : (s.modMove pf g).mode = s.mode := rfl
@[simp] theorem State.modMove_phase (pf : Nat) (g : Move → Move) : (s.modMove pf g).phase = s.phase := rfl
@[simp] theorem State.modMove_fwVer (pf : Nat) (g : Move → Move) : (s.modMove pf g).fwVer = s.fwVer := rfl
@[simp] theorem State.modMove_regs (pf : Nat) (g : Move → Move) : (s.modMove pf g).regs = s.regs := rfl
@[simp] theorem State.modMove_frame (pf : Nat) (g : Move → Move) : (s.modMove pf g).frame = s.frame := rfl
@[simp] theorem State.modMove_eng (pf : Nat) (g : Move → Move) : (s.modMove pf g).eng = s.eng := rfl
@[simp] theorem State.modMove_ldr (pf : Nat) (g : Move → Move) : (s.modMove pf g).ldr = s.ldr := rfl
@[simp] theorem State.modMove_mem (pf : Nat) (g : Move → Move) : (s.modMove pf g).mem = s.mem := rfl
@[simp] theorem State.modMove_ecc (pf : Nat) (g : Move → Move) : (s.modMove pf g).ecc = s.ecc := rfl
@[simp] theorem State.modMove_banks (pf : Nat) (g : Move → Move) : (s.modMove pf g).banks = s.banks := rfl
@[simp] theorem State.modMove_dw (pf : Nat) (g : Move → Move) : (s.modMove pf g).dw = s.dw := rfl
@[simp] theorem State.modMove_lanes (pf : Nat) (g : Move → Move) : (s.modMove pf g).lanes = s.lanes := rfl
@[simp] theorem State.modMove_evt (pf : Nat) (g : Move → Move) : (s.modMove pf g).evt = s.evt := rfl
@[simp] theorem State.modMove_host (pf : Nat) (g : Move → Move) : (s.modMove pf g).host = s.host := rfl
@[simp] theorem State.modMove_cairn (pf : Nat) (g : Move → Move) : (s.modMove pf g).cairn = s.cairn := rfl
@[simp] theorem State.modMove_edge (pf : Nat) (g : Move → Move) : (s.modMove pf g).edge = s.edge := rfl
@[simp] theorem State.modMove_hub (pf : Nat) (g : Move → Move) : (s.modMove pf g).hub = s.hub := rfl

end Sys2Proof.Machine
end

