-- ==== Sys2Proof/Laws/Store.lean ====
section
/-! SUPPORT. The laws of sparse stores: what a write reads as, and that every operation keeps the canonical form. -/

namespace Sys2Proof

variable {α : Type}

@[simp] theorem Store.get_nil (d : α) (k : Nat) : Store.get ([] : Store α) d k = d := rfl

/-- What holds of the default and of every listed entry holds of whatever a key reads as. -/
theorem Store.get_all {P : α → Prop} {m : Store α} {d : α} (hd : P d) (h : ∀ x ∈ m, P x.2) (k : Nat) : P (Store.get m d k) := by
  induction m with
  | nil => exact hd
  | cons p t ih =>
    unfold Store.get
    split
    · exact h p (List.mem_cons_self ..)
    · exact ih fun x hx => h x (List.mem_cons_of_mem _ hx)

/-- A key that has been erased reads as the default, every other as before. -/
theorem Store.get_erase (m : Store α) (d : α) (k j : Nat) :
    Store.get (Store.erase m k) d j = if j = k then d else Store.get m d j := by
  induction m with
  | nil => simp [Store.erase]
  | cons p t ih =>
    unfold Store.erase
    by_cases h : p.1 = k
    · simp only [h, if_true, ih, Store.get]
      by_cases hj : j = k
      · simp [hj]
      · simp [hj, Ne.symm hj]
    · simp only [h, if_false, Store.get, ih]
      by_cases hj : p.1 = j
      · have : j ≠ k := by rintro rfl; exact h hj
        simp [hj, this]
      · simp [hj]

/-- A key that has been written reads as its new value, every other as before. -/
theorem Store.get_insert (m : Store α) (d : α) (k j : Nat) (v : α) :
    Store.get (Store.insert m k v) d j = if j = k then v else Store.get m d j := by
  induction m with
  | nil =>
    by_cases h : j = k
    · simp [Store.insert, Store.get, h]
    · simp [Store.insert, Store.get, h, Ne.symm h]
  | cons p t ih =>
    unfold Store.insert
    by_cases h1 : k < p.1
    · by_cases hj : j = k
      · simp [h1, Store.get, hj]
      · simp [h1, Store.get, hj, Ne.symm hj]
    · by_cases h2 : p.1 = k
      · by_cases hj : j = k
        · simp [h2, Store.get, hj]
        · have : ¬ p.1 = j := by rw [h2]; exact Ne.symm hj
          simp [h2, Store.get, hj, Ne.symm hj]
      · simp only [h1, h2, if_false, Store.get, ih]
        by_cases hj : p.1 = j
        · have : j ≠ k := by rintro rfl; exact h2 hj
          simp [hj, this]
        · simp [hj]

/-- What a store reads after one write. -/
theorem Store.get_set [DecidableEq α] (m : Store α) (d : α) (k j : Nat) (v : α) :
    Store.get (Store.set m d k v) d j = if j = k then v else Store.get m d j := by
  unfold Store.set
  by_cases h : v = d
  · simp [h, Store.get_erase]
  · simp [h, Store.get_insert]

@[simp] theorem Store.get_set_self [DecidableEq α] (m : Store α) (d : α) (k : Nat) (v : α) :
    Store.get (Store.set m d k v) d k = v := by simp [Store.get_set]

@[simp] theorem Store.get_set_ne [DecidableEq α] (m : Store α) (d : α) {k j : Nat} (v : α) (h : j ≠ k) :
    Store.get (Store.set m d k v) d j = Store.get m d j := by simp [Store.get_set, h]

/-- A write leaves every other key as it read, whatever the defaults. -/
theorem Store.get_set_ne' [DecidableEq α] (m : Store α) (d d' : α) {k j : Nat} (v : α) (h : j ≠ k) :
    Store.get (Store.set m d k v) d' j = Store.get m d' j := by
  unfold Store.set
  split <;> simp [Store.get_erase, Store.get_insert, h]

/-! ### The canonical form -/

/-- A bound below a bound below which the keys rise. -/
def Store.above (lo : Option Nat) (k : Nat) : Prop := ∀ b, lo = some b → b < k

theorem Store.rising_cons (p : Nat × α) (t : Store α) (lo : Option Nat) :
    Store.rising (p :: t) lo = true ↔ Store.above lo p.1 ∧ Store.rising t (some p.1) = true := by
  unfold Store.above
  cases lo <;> simp [Store.rising]

theorem Store.rising_weaken {t : Store α} {lo lo' : Option Nat} (h : Store.rising t lo = true)
    (w : ∀ k, Store.above lo k → Store.above lo' k) : Store.rising t lo' = true := by
  cases t with
  | nil => rfl
  | cons p t =>
    rw [Store.rising_cons] at h ⊢
    exact ⟨w _ h.1, h.2⟩

theorem Store.above_trans {lo : Option Nat} {k j : Nat} (h : Store.above lo k) (hk : k < j) : Store.above lo j :=
  fun b hb => Nat.lt_trans (h b hb) hk

theorem Store.rising_erase (m : Store α) (k : Nat) (lo : Option Nat) (h : Store.rising m lo = true) :
    Store.rising (Store.erase m k) lo = true := by
  induction m generalizing lo with
  | nil => rfl
  | cons p t ih =>
    rw [Store.rising_cons] at h
    unfold Store.erase
    by_cases hk : p.1 = k
    · simp only [hk, if_true]
      refine ih lo (Store.rising_weaken h.2 ?_)
      intro j hj
      exact Store.above_trans h.1 (hj _ rfl)
    · simp only [hk, if_false]
      rw [Store.rising_cons]
      exact ⟨h.1, ih _ h.2⟩

theorem Store.rising_insert (m : Store α) (k : Nat) (v : α) (lo : Option Nat) (h : Store.rising m lo = true)
    (hk : Store.above lo k) : Store.rising (Store.insert m k v) lo = true := by
  induction m generalizing lo with
  | nil =>
    rw [Store.insert, Store.rising_cons]
    exact ⟨hk, rfl⟩
  | cons p t ih =>
    rw [Store.rising_cons] at h
    unfold Store.insert
    by_cases h1 : k < p.1
    · rw [if_pos h1, Store.rising_cons, Store.rising_cons]
      exact ⟨hk, fun b hb => by cases hb; exact h1, h.2⟩
    · by_cases h2 : p.1 = k
      · rw [if_neg h1, if_pos h2, Store.rising_cons]
        exact ⟨hk, h2 ▸ h.2⟩
      · rw [if_neg h1, if_neg h2, Store.rising_cons]
        exact ⟨h.1, ih _ h.2 fun b hb => by cases hb; omega⟩

theorem Store.all_erase (m : Store α) (k : Nat) (f : Nat × α → Bool) (h : m.all f = true) :
    (Store.erase m k).all f = true := by
  induction m with
  | nil => rfl
  | cons p t ih =>
    simp only [List.all_cons, Bool.and_eq_true] at h
    unfold Store.erase
    split
    · exact ih h.2
    · simp [h.1, ih h.2]

theorem Store.all_insert (m : Store α) (k : Nat) (v : α) (f : Nat × α → Bool) (h : m.all f = true)
    (hv : f (k, v) = true) : (Store.insert m k v).all f = true := by
  induction m with
  | nil => simp [Store.insert, hv]
  | cons p t ih =>
    simp only [List.all_cons, Bool.and_eq_true] at h
    unfold Store.insert
    split
    · simp [hv, h.1, h.2]
    · split
      · simp [hv, h.2]
      · simp [h.1, ih h.2]

/-- A write keeps the canonical form. -/
theorem Store.wf_set [DecidableEq α] (m : Store α) (d : α) (k : Nat) (v : α) (h : Store.wf m d = true) :
    Store.wf (Store.set m d k v) d = true := by
  unfold Store.wf at *
  rw [Bool.and_eq_true] at *
  unfold Store.set
  by_cases hv : v = d
  · simp only [hv, if_true]
    exact ⟨Store.rising_erase _ _ _ h.1, Store.all_erase _ _ _ h.2⟩
  · simp only [hv, if_false]
    exact ⟨Store.rising_insert _ _ _ _ h.1 (fun b hb => by cases hb), Store.all_insert _ _ _ _ h.2 (by simp [hv])⟩

theorem Store.rising_filter (m : Store α) (f : Nat × α → Bool) (lo : Option Nat) (h : Store.rising m lo = true) :
    Store.rising (m.filter f) lo = true := by
  induction m generalizing lo with
  | nil => rfl
  | cons p t ih =>
    rw [Store.rising_cons] at h
    rw [List.filter_cons]
    split
    · rw [Store.rising_cons]
      exact ⟨h.1, ih _ h.2⟩
    · exact ih _ (Store.rising_weaken h.2 fun j hj => Store.above_trans h.1 (hj _ rfl))

/-- Dropping a range of keys keeps the canonical form. -/
theorem Store.wf_dropRange [DecidableEq α] (m : Store α) (d : α) (lo hi : Nat) (h : Store.wf m d = true) :
    Store.wf (Store.dropRange m lo hi) d = true := by
  unfold Store.wf Store.dropRange at *
  rw [Bool.and_eq_true] at *
  refine ⟨Store.rising_filter _ _ _ h.1, ?_⟩
  simp only [List.all_eq_true, List.mem_filter] at *
  exact fun p hp => h.2 p hp.1

/-- After a range of keys is dropped its keys read as the default, every other as before. -/
theorem Store.get_dropRange (m : Store α) (d : α) (lo hi j : Nat) :
    Store.get (Store.dropRange m lo hi) d j = if lo ≤ j ∧ j < hi then d else Store.get m d j := by
  unfold Store.dropRange
  induction m with
  | nil => simp
  | cons p t ih =>
    rw [List.filter_cons]
    by_cases hp : lo ≤ p.1 ∧ p.1 < hi
    · simp only [hp, decide_true, Bool.and_self, Bool.not_true, Bool.false_eq_true, if_false, ih, Store.get]
      by_cases hj : lo ≤ j ∧ j < hi
      · simp [hj]
      · have : ¬ p.1 = j := by rintro rfl; exact hj hp
        simp [hj, this]
    · have hb : (!(decide (lo ≤ p.1) && decide (p.1 < hi))) = true := by
        simp only [Bool.not_eq_true', Bool.and_eq_false_iff, decide_eq_false_iff_not]
        omega
      simp only [hb, if_true, Store.get, ih]
      by_cases hj : p.1 = j
      · subst hj; simp [hp]
      · simp [hj]

end Sys2Proof
end

