-- ==== Sys2Proof/Laws/Ops.lean ====
section
/-! SUPPORT. What each shared operation leaves as it was: one lemma for each field it does not change. -/

namespace Sys2Proof.Machine

variable (s : State)

/-! `setPba` changes `regs` alone. -/

@[simp] theorem setPba_pending (v : Nat) (b : Bool) : (setPba v b s).pending = s.pending := by
  unfold setPba; rfl
@[simp] theorem setPba_out (v : Nat) (b : Bool) : (setPba v b s).out = s.out := by
  unfold setPba; rfl
@[simp] theorem setPba_freeCount (v : Nat) (b : Bool) : (setPba v b s).freeCount = s.freeCount := by
  unfold setPba; rfl
@[simp] theorem setPba_mode (v : Nat) (b : Bool) : (setPba v b s).mode = s.mode := by
  unfold setPba; rfl
@[simp] theorem setPba_phase (v : Nat) (b : Bool) : (setPba v b s).phase = s.phase := by
  unfold setPba; rfl
@[simp] theorem setPba_fwVer (v : Nat) (b : Bool) : (setPba v b s).fwVer = s.fwVer := by
  unfold setPba; rfl
@[simp] theorem setPba_frame (v : Nat) (b : Bool) : (setPba v b s).frame = s.frame := by
  unfold setPba; rfl
@[simp] theorem setPba_arr (v : Nat) (b : Bool) : (setPba v b s).arr = s.arr := by
  unfold setPba; rfl
@[simp] theorem setPba_eng (v : Nat) (b : Bool) : (setPba v b s).eng = s.eng := by
  unfold setPba; rfl
@[simp] theorem setPba_ldr (v : Nat) (b : Bool) : (setPba v b s).ldr = s.ldr := by
  unfold setPba; rfl
@[simp] theorem setPba_mem (v : Nat) (b : Bool) : (setPba v b s).mem = s.mem := by
  unfold setPba; rfl
@[simp] theorem setPba_ecc (v : Nat) (b : Bool) : (setPba v b s).ecc = s.ecc := by
  unfold setPba; rfl
@[simp] theorem setPba_banks (v : Nat) (b : Bool) : (setPba v b s).banks = s.banks := by
  unfold setPba; rfl
@[simp] theorem setPba_dw (v : Nat) (b : Bool) : (setPba v b s).dw = s.dw := by
  unfold setPba; rfl
@[simp] theorem setPba_lanes (v : Nat) (b : Bool) : (setPba v b s).lanes = s.lanes := by
  unfold setPba; rfl
@[simp] theorem setPba_evt (v : Nat) (b : Bool) : (setPba v b s).evt = s.evt := by
  unfold setPba; rfl
@[simp] theorem setPba_host (v : Nat) (b : Bool) : (setPba v b s).host = s.host := by
  unfold setPba; rfl
@[simp] theorem setPba_cairn (v : Nat) (b : Bool) : (setPba v b s).cairn = s.cairn := by
  unfold setPba; rfl
@[simp] theorem setPba_edge (v : Nat) (b : Bool) : (setPba v b s).edge = s.edge := by
  unfold setPba; rfl
@[simp] theorem setPba_hub (v : Nat) (b : Bool) : (setPba v b s).hub = s.hub := by
  unfold setPba; rfl

/-! `msiSend` changes `out`, `evt` alone. -/

@[simp] theorem msiSend_pending (v : Nat) : (msiSend v s).pending = s.pending := by
  rfl
@[simp] theorem msiSend_freeCount (v : Nat) : (msiSend v s).freeCount = s.freeCount := by
  rfl
@[simp] theorem msiSend_mode (v : Nat) : (msiSend v s).mode = s.mode := by
  rfl
@[simp] theorem msiSend_phase (v : Nat) : (msiSend v s).phase = s.phase := by
  rfl
@[simp] theorem msiSend_fwVer (v : Nat) : (msiSend v s).fwVer = s.fwVer := by
  rfl
@[simp] theorem msiSend_regs (v : Nat) : (msiSend v s).regs = s.regs := by
  rfl
@[simp] theorem msiSend_frame (v : Nat) : (msiSend v s).frame = s.frame := by
  rfl
@[simp] theorem msiSend_arr (v : Nat) : (msiSend v s).arr = s.arr := by
  rfl
@[simp] theorem msiSend_eng (v : Nat) : (msiSend v s).eng = s.eng := by
  rfl
@[simp] theorem msiSend_ldr (v : Nat) : (msiSend v s).ldr = s.ldr := by
  rfl
@[simp] theorem msiSend_mem (v : Nat) : (msiSend v s).mem = s.mem := by
  rfl
@[simp] theorem msiSend_ecc (v : Nat) : (msiSend v s).ecc = s.ecc := by
  rfl
@[simp] theorem msiSend_banks (v : Nat) : (msiSend v s).banks = s.banks := by
  rfl
@[simp] theorem msiSend_dw (v : Nat) : (msiSend v s).dw = s.dw := by
  rfl
@[simp] theorem msiSend_lanes (v : Nat) : (msiSend v s).lanes = s.lanes := by
  rfl
@[simp] theorem msiSend_host (v : Nat) : (msiSend v s).host = s.host := by
  rfl
@[simp] theorem msiSend_cairn (v : Nat) : (msiSend v s).cairn = s.cairn := by
  rfl
@[simp] theorem msiSend_edge (v : Nat) : (msiSend v s).edge = s.edge := by
  rfl
@[simp] theorem msiSend_hub (v : Nat) : (msiSend v s).hub = s.hub := by
  rfl

/-! `signal` changes `regs`, `out`, `evt` alone. -/

@[simp] theorem signal_pending (v : Nat) : (signal v s).pending = s.pending := by
  unfold signal; (repeat' split) <;> simp
@[simp] theorem signal_freeCount (v : Nat) : (signal v s).freeCount = s.freeCount := by
  unfold signal; (repeat' split) <;> simp
@[simp] theorem signal_mode (v : Nat) : (signal v s).mode = s.mode := by
  unfold signal; (repeat' split) <;> simp
@[simp] theorem signal_phase (v : Nat) : (signal v s).phase = s.phase := by
  unfold signal; (repeat' split) <;> simp
@[simp] theorem signal_fwVer (v : Nat) : (signal v s).fwVer = s.fwVer := by
  unfold signal; (repeat' split) <;> simp
@[simp] theorem signal_frame (v : Nat) : (signal v s).frame = s.frame := by
  unfold signal; (repeat' split) <;> simp
@[simp] theorem signal_arr (v : Nat) : (signal v s).arr = s.arr := by
  unfold signal; (repeat' split) <;> simp
@[simp] theorem signal_eng (v : Nat) : (signal v s).eng = s.eng := by
  unfold signal; (repeat' split) <;> simp
@[simp] theorem signal_ldr (v : Nat) : (signal v s).ldr = s.ldr := by
  unfold signal; (repeat' split) <;> simp
@[simp] theorem signal_mem (v : Nat) : (signal v s).mem = s.mem := by
  unfold signal; (repeat' split) <;> simp
@[simp] theorem signal_ecc (v : Nat) : (signal v s).ecc = s.ecc := by
  unfold signal; (repeat' split) <;> simp
@[simp] theorem signal_banks (v : Nat) : (signal v s).banks = s.banks := by
  unfold signal; (repeat' split) <;> simp
@[simp] theorem signal_dw (v : Nat) : (signal v s).dw = s.dw := by
  unfold signal; (repeat' split) <;> simp
@[simp] theorem signal_lanes (v : Nat) : (signal v s).lanes = s.lanes := by
  unfold signal; (repeat' split) <;> simp
@[simp] theorem signal_host (v : Nat) : (signal v s).host = s.host := by
  unfold signal; (repeat' split) <;> simp
@[simp] theorem signal_cairn (v : Nat) : (signal v s).cairn = s.cairn := by
  unfold signal; (repeat' split) <;> simp
@[simp] theorem signal_edge (v : Nat) : (signal v s).edge = s.edge := by
  unfold signal; (repeat' split) <;> simp
@[simp] theorem signal_hub (v : Nat) : (signal v s).hub = s.hub := by
  unfold signal; (repeat' split) <;> simp

/-! `ringRecord` changes `regs`, `out`, `evt` alone. -/

@[simp] theorem ringRecord_pending (a d : Nat) : (ringRecord a d s).pending = s.pending := by
  unfold ringRecord; dsimp only; (repeat' split) <;> simp
@[simp] theorem ringRecord_freeCount (a d : Nat) : (ringRecord a d s).freeCount = s.freeCount := by
  unfold ringRecord; dsimp only; (repeat' split) <;> simp
@[simp] theorem ringRecord_mode (a d : Nat) : (ringRecord a d s).mode = s.mode := by
  unfold ringRecord; dsimp only; (repeat' split) <;> simp
@[simp] theorem ringRecord_phase (a d : Nat) : (ringRecord a d s).phase = s.phase := by
  unfold ringRecord; dsimp only; (repeat' split) <;> simp
@[simp] theorem ringRecord_fwVer (a d : Nat) : (ringRecord a d s).fwVer = s.fwVer := by
  unfold ringRecord; dsimp only; (repeat' split) <;> simp
@[simp] theorem ringRecord_frame (a d : Nat) : (ringRecord a d s).frame = s.frame := by
  unfold ringRecord; dsimp only; (repeat' split) <;> simp
@[simp] theorem ringRecord_arr (a d : Nat) : (ringRecord a d s).arr = s.arr := by
  unfold ringRecord; dsimp only; (repeat' split) <;> simp
@[simp] theorem ringRecord_eng (a d : Nat) : (ringRecord a d s).eng = s.eng := by
  unfold ringRecord; dsimp only; (repeat' split) <;> simp
@[simp] theorem ringRecord_ldr (a d : Nat) : (ringRecord a d s).ldr = s.ldr := by
  unfold ringRecord; dsimp only; (repeat' split) <;> simp
@[simp] theorem ringRecord_mem (a d : Nat) : (ringRecord a d s).mem = s.mem := by
  unfold ringRecord; dsimp only; (repeat' split) <;> simp
@[simp] theorem ringRecord_ecc (a d : Nat) : (ringRecord a d s).ecc = s.ecc := by
  unfold ringRecord; dsimp only; (repeat' split) <;> simp
@[simp] theorem ringRecord_banks (a d : Nat) : (ringRecord a d s).banks = s.banks := by
  unfold ringRecord; dsimp only; (repeat' split) <;> simp
@[simp] theorem ringRecord_dw (a d : Nat) : (ringRecord a d s).dw = s.dw := by
  unfold ringRecord; dsimp only; (repeat' split) <;> simp
@[simp] theorem ringRecord_lanes (a d : Nat) : (ringRecord a d s).lanes = s.lanes := by
  unfold ringRecord; dsimp only; (repeat' split) <;> simp
@[simp] theorem ringRecord_host (a d : Nat) : (ringRecord a d s).host = s.host := by
  unfold ringRecord; dsimp only; (repeat' split) <;> simp
@[simp] theorem ringRecord_cairn (a d : Nat) : (ringRecord a d s).cairn = s.cairn := by
  unfold ringRecord; dsimp only; (repeat' split) <;> simp
@[simp] theorem ringRecord_edge (a d : Nat) : (ringRecord a d s).edge = s.edge := by
  unfold ringRecord; dsimp only; (repeat' split) <;> simp
@[simp] theorem ringRecord_hub (a d : Nat) : (ringRecord a d s).hub = s.hub := by
  unfold ringRecord; dsimp only; (repeat' split) <;> simp

/-! `routeEvent` changes `regs`, `out`, `evt` alone. -/

@[simp] theorem routeEvent_pending (a d : Nat) : (routeEvent a d s).pending = s.pending := by
  unfold routeEvent; dsimp only; (repeat' split) <;> simp
@[simp] theorem routeEvent_freeCount (a d : Nat) : (routeEvent a d s).freeCount = s.freeCount := by
  unfold routeEvent; dsimp only; (repeat' split) <;> simp
@[simp] theorem routeEvent_mode (a d : Nat) : (routeEvent a d s).mode = s.mode := by
  unfold routeEvent; dsimp only; (repeat' split) <;> simp
@[simp] theorem routeEvent_phase (a d : Nat) : (routeEvent a d s).phase = s.phase := by
  unfold routeEvent; dsimp only; (repeat' split) <;> simp
@[simp] theorem routeEvent_fwVer (a d : Nat) : (routeEvent a d s).fwVer = s.fwVer := by
  unfold routeEvent; dsimp only; (repeat' split) <;> simp
@[simp] theorem routeEvent_frame (a d : Nat) : (routeEvent a d s).frame = s.frame := by
  unfold routeEvent; dsimp only; (repeat' split) <;> simp
@[simp] theorem routeEvent_arr (a d : Nat) : (routeEvent a d s).arr = s.arr := by
  unfold routeEvent; dsimp only; (repeat' split) <;> simp
@[simp] theorem routeEvent_eng (a d : Nat) : (routeEvent a d s).eng = s.eng := by
  unfold routeEvent; dsimp only; (repeat' split) <;> simp
@[simp] theorem routeEvent_ldr (a d : Nat) : (routeEvent a d s).ldr = s.ldr := by
  unfold routeEvent; dsimp only; (repeat' split) <;> simp
@[simp] theorem routeEvent_mem (a d : Nat) : (routeEvent a d s).mem = s.mem := by
  unfold routeEvent; dsimp only; (repeat' split) <;> simp
@[simp] theorem routeEvent_ecc (a d : Nat) : (routeEvent a d s).ecc = s.ecc := by
  unfold routeEvent; dsimp only; (repeat' split) <;> simp
@[simp] theorem routeEvent_banks (a d : Nat) : (routeEvent a d s).banks = s.banks := by
  unfold routeEvent; dsimp only; (repeat' split) <;> simp
@[simp] theorem routeEvent_dw (a d : Nat) : (routeEvent a d s).dw = s.dw := by
  unfold routeEvent; dsimp only; (repeat' split) <;> simp
@[simp] theorem routeEvent_lanes (a d : Nat) : (routeEvent a d s).lanes = s.lanes := by
  unfold routeEvent; dsimp only; (repeat' split) <;> simp
@[simp] theorem routeEvent_host (a d : Nat) : (routeEvent a d s).host = s.host := by
  unfold routeEvent; dsimp only; (repeat' split) <;> simp
@[simp] theorem routeEvent_cairn (a d : Nat) : (routeEvent a d s).cairn = s.cairn := by
  unfold routeEvent; dsimp only; (repeat' split) <;> simp
@[simp] theorem routeEvent_edge (a d : Nat) : (routeEvent a d s).edge = s.edge := by
  unfold routeEvent; dsimp only; (repeat' split) <;> simp
@[simp] theorem routeEvent_hub (a d : Nat) : (routeEvent a d s).hub = s.hub := by
  unfold routeEvent; dsimp only; (repeat' split) <;> simp

/-! `fire` changes `regs`, `out`, `evt` alone. -/

@[simp] theorem fire_pending (a d : Nat) : (fire a d s).pending = s.pending := by
  unfold fire; dsimp only; (repeat' split) <;> simp
@[simp] theorem fire_freeCount (a d : Nat) : (fire a d s).freeCount = s.freeCount := by
  unfold fire; dsimp only; (repeat' split) <;> simp
@[simp] theorem fire_mode (a d : Nat) : (fire a d s).mode = s.mode := by
  unfold fire; dsimp only; (repeat' split) <;> simp
@[simp] theorem fire_phase (a d : Nat) : (fire a d s).phase = s.phase := by
  unfold fire; dsimp only; (repeat' split) <;> simp
@[simp] theorem fire_fwVer (a d : Nat) : (fire a d s).fwVer = s.fwVer := by
  unfold fire; dsimp only; (repeat' split) <;> simp
@[simp] theorem fire_frame (a d : Nat) : (fire a d s).frame = s.frame := by
  unfold fire; dsimp only; (repeat' split) <;> simp
@[simp] theorem fire_arr (a d : Nat) : (fire a d s).arr = s.arr := by
  unfold fire; dsimp only; (repeat' split) <;> simp
@[simp] theorem fire_eng (a d : Nat) : (fire a d s).eng = s.eng := by
  unfold fire; dsimp only; (repeat' split) <;> simp
@[simp] theorem fire_ldr (a d : Nat) : (fire a d s).ldr = s.ldr := by
  unfold fire; dsimp only; (repeat' split) <;> simp
@[simp] theorem fire_mem (a d : Nat) : (fire a d s).mem = s.mem := by
  unfold fire; dsimp only; (repeat' split) <;> simp
@[simp] theorem fire_ecc (a d : Nat) : (fire a d s).ecc = s.ecc := by
  unfold fire; dsimp only; (repeat' split) <;> simp
@[simp] theorem fire_banks (a d : Nat) : (fire a d s).banks = s.banks := by
  unfold fire; dsimp only; (repeat' split) <;> simp
@[simp] theorem fire_dw (a d : Nat) : (fire a d s).dw = s.dw := by
  unfold fire; dsimp only; (repeat' split) <;> simp
@[simp] theorem fire_lanes (a d : Nat) : (fire a d s).lanes = s.lanes := by
  unfold fire; dsimp only; (repeat' split) <;> simp
@[simp] theorem fire_host (a d : Nat) : (fire a d s).host = s.host := by
  unfold fire; dsimp only; (repeat' split) <;> simp
@[simp] theorem fire_cairn (a d : Nat) : (fire a d s).cairn = s.cairn := by
  unfold fire; dsimp only; (repeat' split) <;> simp
@[simp] theorem fire_edge (a d : Nat) : (fire a d s).edge = s.edge := by
  unfold fire; dsimp only; (repeat' split) <;> simp
@[simp] theorem fire_hub (a d : Nat) : (fire a d s).hub = s.hub := by
  unfold fire; dsimp only; (repeat' split) <;> simp

/-- What the routing of events and the batch itself do not change, one cycle changes as what runs in it does. -/
theorem inOneCycle_field {α : Type} (g : State → α) (f : State → State) (s : State) (hr : ∀ a d t, g (routeEvent a d t) = g t)
    (he : ∀ (t : State) (e : Events), g { t with evt := e } = g t) (hf : ∀ e : Events, g (f { s with evt := e }) = g s) :
    g (inOneCycle f s) = g s := by
  have loop : ∀ (l : List (Nat × Nat)) (t : State), g (l.foldl (fun s x => routeEvent x.1 x.2 s) t) = g t := by
    intro l
    induction l with
    | nil => exact fun _ => rfl
    | cons x l ih => exact fun t => (ih _).trans (hr _ _ _)
  unfold inOneCycle
  split
  · exact hf s.evt
  · exact (loop _ _).trans ((he _ _).trans (hf _))

/-! What keeps a field beside `regs`, `out` and `evt` keeps it in one cycle. -/

@[simp] theorem inOneCycle_pending {f : State → State} (h : ∀ t, (f t).pending = t.pending) : (inOneCycle f s).pending = s.pending :=
  inOneCycle_field State.pending f s (fun _ _ _ => by simp) (fun _ _ => rfl) fun _ => h _
@[simp] theorem inOneCycle_freeCount {f : State → State} (h : ∀ t, (f t).freeCount = t.freeCount) : (inOneCycle f s).freeCount = s.freeCount :=
  inOneCycle_field State.freeCount f s (fun _ _ _ => by simp) (fun _ _ => rfl) fun _ => h _
@[simp] theorem inOneCycle_mode {f : State → State} (h : ∀ t, (f t).mode = t.mode) : (inOneCycle f s).mode = s.mode :=
  inOneCycle_field State.mode f s (fun _ _ _ => by simp) (fun _ _ => rfl) fun _ => h _
@[simp] theorem inOneCycle_phase {f : State → State} (h : ∀ t, (f t).phase = t.phase) : (inOneCycle f s).phase = s.phase :=
  inOneCycle_field State.phase f s (fun _ _ _ => by simp) (fun _ _ => rfl) fun _ => h _
@[simp] theorem inOneCycle_fwVer {f : State → State} (h : ∀ t, (f t).fwVer = t.fwVer) : (inOneCycle f s).fwVer = s.fwVer :=
  inOneCycle_field State.fwVer f s (fun _ _ _ => by simp) (fun _ _ => rfl) fun _ => h _
@[simp] theorem inOneCycle_frame {f : State → State} (h : ∀ t, (f t).frame = t.frame) : (inOneCycle f s).frame = s.frame :=
  inOneCycle_field State.frame f s (fun _ _ _ => by simp) (fun _ _ => rfl) fun _ => h _
@[simp] theorem inOneCycle_arr {f : State → State} (h : ∀ t, (f t).arr = t.arr) : (inOneCycle f s).arr = s.arr :=
  inOneCycle_field State.arr f s (fun _ _ _ => by simp) (fun _ _ => rfl) fun _ => h _
@[simp] theorem inOneCycle_eng {f : State → State} (h : ∀ t, (f t).eng = t.eng) : (inOneCycle f s).eng = s.eng :=
  inOneCycle_field State.eng f s (fun _ _ _ => by simp) (fun _ _ => rfl) fun _ => h _
@[simp] theorem inOneCycle_ldr {f : State → State} (h : ∀ t, (f t).ldr = t.ldr) : (inOneCycle f s).ldr = s.ldr :=
  inOneCycle_field State.ldr f s (fun _ _ _ => by simp) (fun _ _ => rfl) fun _ => h _
@[simp] theorem inOneCycle_mem {f : State → State} (h : ∀ t, (f t).mem = t.mem) : (inOneCycle f s).mem = s.mem :=
  inOneCycle_field State.mem f s (fun _ _ _ => by simp) (fun _ _ => rfl) fun _ => h _
@[simp] theorem inOneCycle_ecc {f : State → State} (h : ∀ t, (f t).ecc = t.ecc) : (inOneCycle f s).ecc = s.ecc :=
  inOneCycle_field State.ecc f s (fun _ _ _ => by simp) (fun _ _ => rfl) fun _ => h _
@[simp] theorem inOneCycle_banks {f : State → State} (h : ∀ t, (f t).banks = t.banks) : (inOneCycle f s).banks = s.banks :=
  inOneCycle_field State.banks f s (fun _ _ _ => by simp) (fun _ _ => rfl) fun _ => h _
@[simp] theorem inOneCycle_dw {f : State → State} (h : ∀ t, (f t).dw = t.dw) : (inOneCycle f s).dw = s.dw :=
  inOneCycle_field State.dw f s (fun _ _ _ => by simp) (fun _ _ => rfl) fun _ => h _
@[simp] theorem inOneCycle_lanes {f : State → State} (h : ∀ t, (f t).lanes = t.lanes) : (inOneCycle f s).lanes = s.lanes :=
  inOneCycle_field State.lanes f s (fun _ _ _ => by simp) (fun _ _ => rfl) fun _ => h _
@[simp] theorem inOneCycle_host {f : State → State} (h : ∀ t, (f t).host = t.host) : (inOneCycle f s).host = s.host :=
  inOneCycle_field State.host f s (fun _ _ _ => by simp) (fun _ _ => rfl) fun _ => h _
@[simp] theorem inOneCycle_cairn {f : State → State} (h : ∀ t, (f t).cairn = t.cairn) : (inOneCycle f s).cairn = s.cairn :=
  inOneCycle_field State.cairn f s (fun _ _ _ => by simp) (fun _ _ => rfl) fun _ => h _
@[simp] theorem inOneCycle_edge {f : State → State} (h : ∀ t, (f t).edge = t.edge) : (inOneCycle f s).edge = s.edge :=
  inOneCycle_field State.edge f s (fun _ _ _ => by simp) (fun _ _ => rfl) fun _ => h _
@[simp] theorem inOneCycle_hub {f : State → State} (h : ∀ t, (f t).hub = t.hub) : (inOneCycle f s).hub = s.hub :=
  inOneCycle_field State.hub f s (fun _ _ _ => by simp) (fun _ _ => rfl) fun _ => h _

/-! `writeReject` changes `regs`, `out`, `evt` alone. -/

@[simp] theorem writeReject_pending : (writeReject s).pending = s.pending := by
  simp [writeReject]
@[simp] theorem writeReject_freeCount : (writeReject s).freeCount = s.freeCount := by
  simp [writeReject]
@[simp] theorem writeReject_mode : (writeReject s).mode = s.mode := by
  simp [writeReject]
@[simp] theorem writeReject_phase : (writeReject s).phase = s.phase := by
  simp [writeReject]
@[simp] theorem writeReject_fwVer : (writeReject s).fwVer = s.fwVer := by
  simp [writeReject]
@[simp] theorem writeReject_frame : (writeReject s).frame = s.frame := by
  simp [writeReject]
@[simp] theorem writeReject_arr : (writeReject s).arr = s.arr := by
  simp [writeReject]
@[simp] theorem writeReject_eng : (writeReject s).eng = s.eng := by
  simp [writeReject]
@[simp] theorem writeReject_ldr : (writeReject s).ldr = s.ldr := by
  simp [writeReject]
@[simp] theorem writeReject_mem : (writeReject s).mem = s.mem := by
  simp [writeReject]
@[simp] theorem writeReject_ecc : (writeReject s).ecc = s.ecc := by
  simp [writeReject]
@[simp] theorem writeReject_banks : (writeReject s).banks = s.banks := by
  simp [writeReject]
@[simp] theorem writeReject_dw : (writeReject s).dw = s.dw := by
  simp [writeReject]
@[simp] theorem writeReject_lanes : (writeReject s).lanes = s.lanes := by
  simp [writeReject]
@[simp] theorem writeReject_host : (writeReject s).host = s.host := by
  simp [writeReject]
@[simp] theorem writeReject_cairn : (writeReject s).cairn = s.cairn := by
  simp [writeReject]
@[simp] theorem writeReject_edge : (writeReject s).edge = s.edge := by
  simp [writeReject]
@[simp] theorem writeReject_hub : (writeReject s).hub = s.hub := by
  simp [writeReject]

/-! `nearWrap` changes `regs`, `out`, `evt`, `cairn` alone. -/

@[simp] theorem nearWrap_pending : (nearWrap s).pending = s.pending := by
  unfold nearWrap; dsimp only; split <;> simp
@[simp] theorem nearWrap_freeCount : (nearWrap s).freeCount = s.freeCount := by
  unfold nearWrap; dsimp only; split <;> simp
@[simp] theorem nearWrap_mode : (nearWrap s).mode = s.mode := by
  unfold nearWrap; dsimp only; split <;> simp
@[simp] theorem nearWrap_phase : (nearWrap s).phase = s.phase := by
  unfold nearWrap; dsimp only; split <;> simp
@[simp] theorem nearWrap_fwVer : (nearWrap s).fwVer = s.fwVer := by
  unfold nearWrap; dsimp only; split <;> simp
@[simp] theorem nearWrap_frame : (nearWrap s).frame = s.frame := by
  unfold nearWrap; dsimp only; split <;> simp
@[simp] theorem nearWrap_arr : (nearWrap s).arr = s.arr := by
  unfold nearWrap; dsimp only; split <;> simp
@[simp] theorem nearWrap_eng : (nearWrap s).eng = s.eng := by
  unfold nearWrap; dsimp only; split <;> simp
@[simp] theorem nearWrap_ldr : (nearWrap s).ldr = s.ldr := by
  unfold nearWrap; dsimp only; split <;> simp
@[simp] theorem nearWrap_mem : (nearWrap s).mem = s.mem := by
  unfold nearWrap; dsimp only; split <;> simp
@[simp] theorem nearWrap_ecc : (nearWrap s).ecc = s.ecc := by
  unfold nearWrap; dsimp only; split <;> simp
@[simp] theorem nearWrap_banks : (nearWrap s).banks = s.banks := by
  unfold nearWrap; dsimp only; split <;> simp
@[simp] theorem nearWrap_dw : (nearWrap s).dw = s.dw := by
  unfold nearWrap; dsimp only; split <;> simp
@[simp] theorem nearWrap_lanes : (nearWrap s).lanes = s.lanes := by
  unfold nearWrap; dsimp only; split <;> simp
@[simp] theorem nearWrap_host : (nearWrap s).host = s.host := by
  unfold nearWrap; dsimp only; split <;> simp
@[simp] theorem nearWrap_edge : (nearWrap s).edge = s.edge := by
  unfold nearWrap; dsimp only; split <;> simp
@[simp] theorem nearWrap_hub : (nearWrap s).hub = s.hub := by
  unfold nearWrap; dsimp only; split <;> simp

/-! `cairnWrite` changes `regs`, `out`, `evt`, `cairn` alone. -/

@[simp] theorem cairnWrite_pending (k u : Nat) (l : List Byte) (a b : Bool) : (cairnWrite k u l a b s).pending = s.pending := by
  unfold cairnWrite; dsimp only; (repeat' split) <;> simp
@[simp] theorem cairnWrite_freeCount (k u : Nat) (l : List Byte) (a b : Bool) : (cairnWrite k u l a b s).freeCount = s.freeCount := by
  unfold cairnWrite; dsimp only; (repeat' split) <;> simp
@[simp] theorem cairnWrite_mode (k u : Nat) (l : List Byte) (a b : Bool) : (cairnWrite k u l a b s).mode = s.mode := by
  unfold cairnWrite; dsimp only; (repeat' split) <;> simp
@[simp] theorem cairnWrite_phase (k u : Nat) (l : List Byte) (a b : Bool) : (cairnWrite k u l a b s).phase = s.phase := by
  unfold cairnWrite; dsimp only; (repeat' split) <;> simp
@[simp] theorem cairnWrite_fwVer (k u : Nat) (l : List Byte) (a b : Bool) : (cairnWrite k u l a b s).fwVer = s.fwVer := by
  unfold cairnWrite; dsimp only; (repeat' split) <;> simp
@[simp] theorem cairnWrite_frame (k u : Nat) (l : List Byte) (a b : Bool) : (cairnWrite k u l a b s).frame = s.frame := by
  unfold cairnWrite; dsimp only; (repeat' split) <;> simp
@[simp] theorem cairnWrite_arr (k u : Nat) (l : List Byte) (a b : Bool) : (cairnWrite k u l a b s).arr = s.arr := by
  unfold cairnWrite; dsimp only; (repeat' split) <;> simp
@[simp] theorem cairnWrite_eng (k u : Nat) (l : List Byte) (a b : Bool) : (cairnWrite k u l a b s).eng = s.eng := by
  unfold cairnWrite; dsimp only; (repeat' split) <;> simp
@[simp] theorem cairnWrite_ldr (k u : Nat) (l : List Byte) (a b : Bool) : (cairnWrite k u l a b s).ldr = s.ldr := by
  unfold cairnWrite; dsimp only; (repeat' split) <;> simp
@[simp] theorem cairnWrite_mem (k u : Nat) (l : List Byte) (a b : Bool) : (cairnWrite k u l a b s).mem = s.mem := by
  unfold cairnWrite; dsimp only; (repeat' split) <;> simp
@[simp] theorem cairnWrite_ecc (k u : Nat) (l : List Byte) (a b : Bool) : (cairnWrite k u l a b s).ecc = s.ecc := by
  unfold cairnWrite; dsimp only; (repeat' split) <;> simp
@[simp] theorem cairnWrite_banks (k u : Nat) (l : List Byte) (a b : Bool) : (cairnWrite k u l a b s).banks = s.banks := by
  unfold cairnWrite; dsimp only; (repeat' split) <;> simp
@[simp] theorem cairnWrite_dw (k u : Nat) (l : List Byte) (a b : Bool) : (cairnWrite k u l a b s).dw = s.dw := by
  unfold cairnWrite; dsimp only; (repeat' split) <;> simp
@[simp] theorem cairnWrite_lanes (k u : Nat) (l : List Byte) (a b : Bool) : (cairnWrite k u l a b s).lanes = s.lanes := by
  unfold cairnWrite; dsimp only; (repeat' split) <;> simp
@[simp] theorem cairnWrite_host (k u : Nat) (l : List Byte) (a b : Bool) : (cairnWrite k u l a b s).host = s.host := by
  unfold cairnWrite; dsimp only; (repeat' split) <;> simp
@[simp] theorem cairnWrite_edge (k u : Nat) (l : List Byte) (a b : Bool) : (cairnWrite k u l a b s).edge = s.edge := by
  unfold cairnWrite; dsimp only; (repeat' split) <;> simp
@[simp] theorem cairnWrite_hub (k u : Nat) (l : List Byte) (a b : Bool) : (cairnWrite k u l a b s).hub = s.hub := by
  unfold cairnWrite; dsimp only; (repeat' split) <;> simp

/-! `markFaulted` changes `arr` alone. -/

@[simp] theorem markFaulted_pending (p : Nat) : (markFaulted p s).pending = s.pending := by
  rfl
@[simp] theorem markFaulted_out (p : Nat) : (markFaulted p s).out = s.out := by
  rfl
@[simp] theorem markFaulted_freeCount (p : Nat) : (markFaulted p s).freeCount = s.freeCount := by
  rfl
@[simp] theorem markFaulted_mode (p : Nat) : (markFaulted p s).mode = s.mode := by
  rfl
@[simp] theorem markFaulted_phase (p : Nat) : (markFaulted p s).phase = s.phase := by
  rfl
@[simp] theorem markFaulted_fwVer (p : Nat) : (markFaulted p s).fwVer = s.fwVer := by
  rfl
@[simp] theorem markFaulted_regs (p : Nat) : (markFaulted p s).regs = s.regs := by
  rfl
@[simp] theorem markFaulted_frame (p : Nat) : (markFaulted p s).frame = s.frame := by
  rfl
@[simp] theorem markFaulted_eng (p : Nat) : (markFaulted p s).eng = s.eng := by
  rfl
@[simp] theorem markFaulted_ldr (p : Nat) : (markFaulted p s).ldr = s.ldr := by
  rfl
@[simp] theorem markFaulted_mem (p : Nat) : (markFaulted p s).mem = s.mem := by
  rfl
@[simp] theorem markFaulted_ecc (p : Nat) : (markFaulted p s).ecc = s.ecc := by
  rfl
@[simp] theorem markFaulted_banks (p : Nat) : (markFaulted p s).banks = s.banks := by
  rfl
@[simp] theorem markFaulted_dw (p : Nat) : (markFaulted p s).dw = s.dw := by
  rfl
@[simp] theorem markFaulted_lanes (p : Nat) : (markFaulted p s).lanes = s.lanes := by
  rfl
@[simp] theorem markFaulted_evt (p : Nat) : (markFaulted p s).evt = s.evt := by
  rfl
@[simp] theorem markFaulted_host (p : Nat) : (markFaulted p s).host = s.host := by
  rfl
@[simp] theorem markFaulted_cairn (p : Nat) : (markFaulted p s).cairn = s.cairn := by
  rfl
@[simp] theorem markFaulted_edge (p : Nat) : (markFaulted p s).edge = s.edge := by
  rfl
@[simp] theorem markFaulted_hub (p : Nat) : (markFaulted p s).hub = s.hub := by
  rfl

/-! `faultPenOf` changes `arr` alone. -/

@[simp] theorem faultPenOf_pending (pf : Nat) : (faultPenOf pf s).pending = s.pending := by
  unfold faultPenOf; split <;> simp
@[simp] theorem faultPenOf_out (pf : Nat) : (faultPenOf pf s).out = s.out := by
  unfold faultPenOf; split <;> simp
@[simp] theorem faultPenOf_freeCount (pf : Nat) : (faultPenOf pf s).freeCount = s.freeCount := by
  unfold faultPenOf; split <;> simp
@[simp] theorem faultPenOf_mode (pf : Nat) : (faultPenOf pf s).mode = s.mode := by
  unfold faultPenOf; split <;> simp
@[simp] theorem faultPenOf_phase (pf : Nat) : (faultPenOf pf s).phase = s.phase := by
  unfold faultPenOf; split <;> simp
@[simp] theorem faultPenOf_fwVer (pf : Nat) : (faultPenOf pf s).fwVer = s.fwVer := by
  unfold faultPenOf; split <;> simp
@[simp] theorem faultPenOf_regs (pf : Nat) : (faultPenOf pf s).regs = s.regs := by
  unfold faultPenOf; split <;> simp
@[simp] theorem faultPenOf_frame (pf : Nat) : (faultPenOf pf s).frame = s.frame := by
  unfold faultPenOf; split <;> simp
@[simp] theorem faultPenOf_eng (pf : Nat) : (faultPenOf pf s).eng = s.eng := by
  unfold faultPenOf; split <;> simp
@[simp] theorem faultPenOf_ldr (pf : Nat) : (faultPenOf pf s).ldr = s.ldr := by
  unfold faultPenOf; split <;> simp
@[simp] theorem faultPenOf_mem (pf : Nat) : (faultPenOf pf s).mem = s.mem := by
  unfold faultPenOf; split <;> simp
@[simp] theorem faultPenOf_ecc (pf : Nat) : (faultPenOf pf s).ecc = s.ecc := by
  unfold faultPenOf; split <;> simp
@[simp] theorem faultPenOf_banks (pf : Nat) : (faultPenOf pf s).banks = s.banks := by
  unfold faultPenOf; split <;> simp
@[simp] theorem faultPenOf_dw (pf : Nat) : (faultPenOf pf s).dw = s.dw := by
  unfold faultPenOf; split <;> simp
@[simp] theorem faultPenOf_lanes (pf : Nat) : (faultPenOf pf s).lanes = s.lanes := by
  unfold faultPenOf; split <;> simp
@[simp] theorem faultPenOf_evt (pf : Nat) : (faultPenOf pf s).evt = s.evt := by
  unfold faultPenOf; split <;> simp
@[simp] theorem faultPenOf_host (pf : Nat) : (faultPenOf pf s).host = s.host := by
  unfold faultPenOf; split <;> simp
@[simp] theorem faultPenOf_cairn (pf : Nat) : (faultPenOf pf s).cairn = s.cairn := by
  unfold faultPenOf; split <;> simp
@[simp] theorem faultPenOf_edge (pf : Nat) : (faultPenOf pf s).edge = s.edge := by
  unfold faultPenOf; split <;> simp
@[simp] theorem faultPenOf_hub (pf : Nat) : (faultPenOf pf s).hub = s.hub := by
  unfold faultPenOf; split <;> simp

/-! `faultFold` changes `regs`, `out`, `evt`, `cairn`, `arr` alone. -/

@[simp] theorem faultFold_pending (pf : Nat) : (faultFold pf s).pending = s.pending := by
  unfold faultFold; dsimp only; split <;> simp
@[simp] theorem faultFold_freeCount (pf : Nat) : (faultFold pf s).freeCount = s.freeCount := by
  unfold faultFold; dsimp only; split <;> simp
@[simp] theorem faultFold_mode (pf : Nat) : (faultFold pf s).mode = s.mode := by
  unfold faultFold; dsimp only; split <;> simp
@[simp] theorem faultFold_phase (pf : Nat) : (faultFold pf s).phase = s.phase := by
  unfold faultFold; dsimp only; split <;> simp
@[simp] theorem faultFold_fwVer (pf : Nat) : (faultFold pf s).fwVer = s.fwVer := by
  unfold faultFold; dsimp only; split <;> simp
@[simp] theorem faultFold_frame (pf : Nat) : (faultFold pf s).frame = s.frame := by
  unfold faultFold; dsimp only; split <;> simp
@[simp] theorem faultFold_eng (pf : Nat) : (faultFold pf s).eng = s.eng := by
  unfold faultFold; dsimp only; split <;> simp
@[simp] theorem faultFold_ldr (pf : Nat) : (faultFold pf s).ldr = s.ldr := by
  unfold faultFold; dsimp only; split <;> simp
@[simp] theorem faultFold_mem (pf : Nat) : (faultFold pf s).mem = s.mem := by
  unfold faultFold; dsimp only; split <;> simp
@[simp] theorem faultFold_ecc (pf : Nat) : (faultFold pf s).ecc = s.ecc := by
  unfold faultFold; dsimp only; split <;> simp
@[simp] theorem faultFold_banks (pf : Nat) : (faultFold pf s).banks = s.banks := by
  unfold faultFold; dsimp only; split <;> simp
@[simp] theorem faultFold_dw (pf : Nat) : (faultFold pf s).dw = s.dw := by
  unfold faultFold; dsimp only; split <;> simp
@[simp] theorem faultFold_lanes (pf : Nat) : (faultFold pf s).lanes = s.lanes := by
  unfold faultFold; dsimp only; split <;> simp
@[simp] theorem faultFold_host (pf : Nat) : (faultFold pf s).host = s.host := by
  unfold faultFold; dsimp only; split <;> simp
@[simp] theorem faultFold_edge (pf : Nat) : (faultFold pf s).edge = s.edge := by
  unfold faultFold; dsimp only; split <;> simp
@[simp] theorem faultFold_hub (pf : Nat) : (faultFold pf s).hub = s.hub := by
  unfold faultFold; dsimp only; split <;> simp

/-! `setPlane` changes `arr` alone. -/

@[simp] theorem State.setPlane_pending (pf a : Nat) (v : Plane) : (s.setPlane pf a v).pending = s.pending := by
  rfl
@[simp] theorem State.setPlane_out (pf a : Nat) (v : Plane) : (s.setPlane pf a v).out = s.out := by
  rfl
@[simp] theorem State.setPlane_freeCount (pf a : Nat) (v : Plane) : (s.setPlane pf a v).freeCount = s.freeCount := by
  rfl
@[simp] theorem State.setPlane_mode (pf a : Nat) (v : Plane) : (s.setPlane pf a v).mode = s.mode := by
  rfl
@[simp] theorem State.setPlane_phase (pf a : Nat) (v : Plane) : (s.setPlane pf a v).phase = s.phase := by
  rfl
@[simp] theorem State.setPlane_fwVer (pf a : Nat) (v : Plane) : (s.setPlane pf a v).fwVer = s.fwVer := by
  rfl
@[simp] theorem State.setPlane_regs (pf a : Nat) (v : Plane) : (s.setPlane pf a v).regs = s.regs := by
  rfl
@[simp] theorem State.setPlane_frame (pf a : Nat) (v : Plane) : (s.setPlane pf a v).frame = s.frame := by
  rfl
@[simp] theorem State.setPlane_eng (pf a : Nat) (v : Plane) : (s.setPlane pf a v).eng = s.eng := by
  rfl
@[simp] theorem State.setPlane_ldr (pf a : Nat) (v : Plane) : (s.setPlane pf a v).ldr = s.ldr := by
  rfl
@[simp] theorem State.setPlane_mem (pf a : Nat) (v : Plane) : (s.setPlane pf a v).mem = s.mem := by
  rfl
@[simp] theorem State.setPlane_ecc (pf a : Nat) (v : Plane) : (s.setPlane pf a v).ecc = s.ecc := by
  rfl
@[simp] theorem State.setPlane_banks (pf a : Nat) (v : Plane) : (s.setPlane pf a v).banks = s.banks := by
  rfl
@[simp] theorem State.setPlane_dw (pf a : Nat) (v : Plane) : (s.setPlane pf a v).dw = s.dw := by
  rfl
@[simp] theorem State.setPlane_lanes (pf a : Nat) (v : Plane) : (s.setPlane pf a v).lanes = s.lanes := by
  rfl
@[simp] theorem State.setPlane_evt (pf a : Nat) (v : Plane) : (s.setPlane pf a v).evt = s.evt := by
  rfl
@[simp] theorem State.setPlane_host (pf a : Nat) (v : Plane) : (s.setPlane pf a v).host = s.host := by
  rfl
@[simp] theorem State.setPlane_cairn (pf a : Nat) (v : Plane) : (s.setPlane pf a v).cairn = s.cairn := by
  rfl
@[simp] theorem State.setPlane_edge (pf a : Nat) (v : Plane) : (s.setPlane pf a v).edge = s.edge := by
  rfl
@[simp] theorem State.setPlane_hub (pf a : Nat) (v : Plane) : (s.setPlane pf a v).hub = s.hub := by
  rfl

/-! `setBadRows` changes `arr` alone. -/

@[simp] theorem State.setBadRows_pending (pf a : Nat) (v : BitVec 64) : (s.setBadRows pf a v).pending = s.pending := by
  rfl
@[simp] theorem State.setBadRows_out (pf a : Nat) (v : BitVec 64) : (s.setBadRows pf a v).out = s.out := by
  rfl
@[simp] theorem State.setBadRows_freeCount (pf a : Nat) (v : BitVec 64) : (s.setBadRows pf a v).freeCount = s.freeCount := by
  rfl
@[simp] theorem State.setBadRows_mode (pf a : Nat) (v : BitVec 64) : (s.setBadRows pf a v).mode = s.mode := by
  rfl
@[simp] theorem State.setBadRows_phase (pf a : Nat) (v : BitVec 64) : (s.setBadRows pf a v).phase = s.phase := by
  rfl
@[simp] theorem State.setBadRows_fwVer (pf a : Nat) (v : BitVec 64) : (s.setBadRows pf a v).fwVer = s.fwVer := by
  rfl
@[simp] theorem State.setBadRows_regs (pf a : Nat) (v : BitVec 64) : (s.setBadRows pf a v).regs = s.regs := by
  rfl
@[simp] theorem State.setBadRows_frame (pf a : Nat) (v : BitVec 64) : (s.setBadRows pf a v).frame = s.frame := by
  rfl
@[simp] theorem State.setBadRows_eng (pf a : Nat) (v : BitVec 64) : (s.setBadRows pf a v).eng = s.eng := by
  rfl
@[simp] theorem State.setBadRows_ldr (pf a : Nat) (v : BitVec 64) : (s.setBadRows pf a v).ldr = s.ldr := by
  rfl
@[simp] theorem State.setBadRows_mem (pf a : Nat) (v : BitVec 64) : (s.setBadRows pf a v).mem = s.mem := by
  rfl
@[simp] theorem State.setBadRows_ecc (pf a : Nat) (v : BitVec 64) : (s.setBadRows pf a v).ecc = s.ecc := by
  rfl
@[simp] theorem State.setBadRows_banks (pf a : Nat) (v : BitVec 64) : (s.setBadRows pf a v).banks = s.banks := by
  rfl
@[simp] theorem State.setBadRows_dw (pf a : Nat) (v : BitVec 64) : (s.setBadRows pf a v).dw = s.dw := by
  rfl
@[simp] theorem State.setBadRows_lanes (pf a : Nat) (v : BitVec 64) : (s.setBadRows pf a v).lanes = s.lanes := by
  rfl
@[simp] theorem State.setBadRows_evt (pf a : Nat) (v : BitVec 64) : (s.setBadRows pf a v).evt = s.evt := by
  rfl
@[simp] theorem State.setBadRows_host (pf a : Nat) (v : BitVec 64) : (s.setBadRows pf a v).host = s.host := by
  rfl
@[simp] theorem State.setBadRows_cairn (pf a : Nat) (v : BitVec 64) : (s.setBadRows pf a v).cairn = s.cairn := by
  rfl
@[simp] theorem State.setBadRows_edge (pf a : Nat) (v : BitVec 64) : (s.setBadRows pf a v).edge = s.edge := by
  rfl
@[simp] theorem State.setBadRows_hub (pf a : Nat) (v : BitVec 64) : (s.setBadRows pf a v).hub = s.hub := by
  rfl

/-! `setIword` changes `arr` alone. -/

@[simp] theorem State.setIword_pending (pf a : Nat) (v : BitVec 14) : (s.setIword pf a v).pending = s.pending := by
  rfl
@[simp] theorem State.setIword_out (pf a : Nat) (v : BitVec 14) : (s.setIword pf a v).out = s.out := by
  rfl
@[simp] theorem State.setIword_freeCount (pf a : Nat) (v : BitVec 14) : (s.setIword pf a v).freeCount = s.freeCount := by
  rfl
@[simp] theorem State.setIword_mode (pf a : Nat) (v : BitVec 14) : (s.setIword pf a v).mode = s.mode := by
  rfl
@[simp] theorem State.setIword_phase (pf a : Nat) (v : BitVec 14) : (s.setIword pf a v).phase = s.phase := by
  rfl
@[simp] theorem State.setIword_fwVer (pf a : Nat) (v : BitVec 14) : (s.setIword pf a v).fwVer = s.fwVer := by
  rfl
@[simp] theorem State.setIword_regs (pf a : Nat) (v : BitVec 14) : (s.setIword pf a v).regs = s.regs := by
  rfl
@[simp] theorem State.setIword_frame (pf a : Nat) (v : BitVec 14) : (s.setIword pf a v).frame = s.frame := by
  rfl
@[simp] theorem State.setIword_eng (pf a : Nat) (v : BitVec 14) : (s.setIword pf a v).eng = s.eng := by
  rfl
@[simp] theorem State.setIword_ldr (pf a : Nat) (v : BitVec 14) : (s.setIword pf a v).ldr = s.ldr := by
  rfl
@[simp] theorem State.setIword_mem (pf a : Nat) (v : BitVec 14) : (s.setIword pf a v).mem = s.mem := by
  rfl
@[simp] theorem State.setIword_ecc (pf a : Nat) (v : BitVec 14) : (s.setIword pf a v).ecc = s.ecc := by
  rfl
@[simp] theorem State.setIword_banks (pf a : Nat) (v : BitVec 14) : (s.setIword pf a v).banks = s.banks := by
  rfl
@[simp] theorem State.setIword_dw (pf a : Nat) (v : BitVec 14) : (s.setIword pf a v).dw = s.dw := by
  rfl
@[simp] theorem State.setIword_lanes (pf a : Nat) (v : BitVec 14) : (s.setIword pf a v).lanes = s.lanes := by
  rfl
@[simp] theorem State.setIword_evt (pf a : Nat) (v : BitVec 14) : (s.setIword pf a v).evt = s.evt := by
  rfl
@[simp] theorem State.setIword_host (pf a : Nat) (v : BitVec 14) : (s.setIword pf a v).host = s.host := by
  rfl
@[simp] theorem State.setIword_cairn (pf a : Nat) (v : BitVec 14) : (s.setIword pf a v).cairn = s.cairn := by
  rfl
@[simp] theorem State.setIword_edge (pf a : Nat) (v : BitVec 14) : (s.setIword pf a v).edge = s.edge := by
  rfl
@[simp] theorem State.setIword_hub (pf a : Nat) (v : BitVec 14) : (s.setIword pf a v).hub = s.hub := by
  rfl

/-! `setDword` changes `arr` alone. -/

@[simp] theorem State.setDword_pending (pf a : Nat) (v : Half) : (s.setDword pf a v).pending = s.pending := by
  rfl
@[simp] theorem State.setDword_out (pf a : Nat) (v : Half) : (s.setDword pf a v).out = s.out := by
  rfl
@[simp] theorem State.setDword_freeCount (pf a : Nat) (v : Half) : (s.setDword pf a v).freeCount = s.freeCount := by
  rfl
@[simp] theorem State.setDword_mode (pf a : Nat) (v : Half) : (s.setDword pf a v).mode = s.mode := by
  rfl
@[simp] theorem State.setDword_phase (pf a : Nat) (v : Half) : (s.setDword pf a v).phase = s.phase := by
  rfl
@[simp] theorem State.setDword_fwVer (pf a : Nat) (v : Half) : (s.setDword pf a v).fwVer = s.fwVer := by
  rfl
@[simp] theorem State.setDword_regs (pf a : Nat) (v : Half) : (s.setDword pf a v).regs = s.regs := by
  rfl
@[simp] theorem State.setDword_frame (pf a : Nat) (v : Half) : (s.setDword pf a v).frame = s.frame := by
  rfl
@[simp] theorem State.setDword_eng (pf a : Nat) (v : Half) : (s.setDword pf a v).eng = s.eng := by
  rfl
@[simp] theorem State.setDword_ldr (pf a : Nat) (v : Half) : (s.setDword pf a v).ldr = s.ldr := by
  rfl
@[simp] theorem State.setDword_mem (pf a : Nat) (v : Half) : (s.setDword pf a v).mem = s.mem := by
  rfl
@[simp] theorem State.setDword_ecc (pf a : Nat) (v : Half) : (s.setDword pf a v).ecc = s.ecc := by
  rfl
@[simp] theorem State.setDword_banks (pf a : Nat) (v : Half) : (s.setDword pf a v).banks = s.banks := by
  rfl
@[simp] theorem State.setDword_dw (pf a : Nat) (v : Half) : (s.setDword pf a v).dw = s.dw := by
  rfl
@[simp] theorem State.setDword_lanes (pf a : Nat) (v : Half) : (s.setDword pf a v).lanes = s.lanes := by
  rfl
@[simp] theorem State.setDword_evt (pf a : Nat) (v : Half) : (s.setDword pf a v).evt = s.evt := by
  rfl
@[simp] theorem State.setDword_host (pf a : Nat) (v : Half) : (s.setDword pf a v).host = s.host := by
  rfl
@[simp] theorem State.setDword_cairn (pf a : Nat) (v : Half) : (s.setDword pf a v).cairn = s.cairn := by
  rfl
@[simp] theorem State.setDword_edge (pf a : Nat) (v : Half) : (s.setDword pf a v).edge = s.edge := by
  rfl
@[simp] theorem State.setDword_hub (pf a : Nat) (v : Half) : (s.setDword pf a v).hub = s.hub := by
  rfl

/-! `setProgram` changes `arr` alone. -/

@[simp] theorem State.setProgram_pending (pf : Nat) (d : Fill) (is : Store (BitVec 14)) (ds : Store Half) : (s.setProgram pf d is ds).pending = s.pending := by
  rfl
@[simp] theorem State.setProgram_out (pf : Nat) (d : Fill) (is : Store (BitVec 14)) (ds : Store Half) : (s.setProgram pf d is ds).out = s.out := by
  rfl
@[simp] theorem State.setProgram_freeCount (pf : Nat) (d : Fill) (is : Store (BitVec 14)) (ds : Store Half) : (s.setProgram pf d is ds).freeCount = s.freeCount := by
  rfl
@[simp] theorem State.setProgram_mode (pf : Nat) (d : Fill) (is : Store (BitVec 14)) (ds : Store Half) : (s.setProgram pf d is ds).mode = s.mode := by
  rfl
@[simp] theorem State.setProgram_phase (pf : Nat) (d : Fill) (is : Store (BitVec 14)) (ds : Store Half) : (s.setProgram pf d is ds).phase = s.phase := by
  rfl
@[simp] theorem State.setProgram_fwVer (pf : Nat) (d : Fill) (is : Store (BitVec 14)) (ds : Store Half) : (s.setProgram pf d is ds).fwVer = s.fwVer := by
  rfl
@[simp] theorem State.setProgram_regs (pf : Nat) (d : Fill) (is : Store (BitVec 14)) (ds : Store Half) : (s.setProgram pf d is ds).regs = s.regs := by
  rfl
@[simp] theorem State.setProgram_frame (pf : Nat) (d : Fill) (is : Store (BitVec 14)) (ds : Store Half) : (s.setProgram pf d is ds).frame = s.frame := by
  rfl
@[simp] theorem State.setProgram_eng (pf : Nat) (d : Fill) (is : Store (BitVec 14)) (ds : Store Half) : (s.setProgram pf d is ds).eng = s.eng := by
  rfl
@[simp] theorem State.setProgram_ldr (pf : Nat) (d : Fill) (is : Store (BitVec 14)) (ds : Store Half) : (s.setProgram pf d is ds).ldr = s.ldr := by
  rfl
@[simp] theorem State.setProgram_mem (pf : Nat) (d : Fill) (is : Store (BitVec 14)) (ds : Store Half) : (s.setProgram pf d is ds).mem = s.mem := by
  rfl
@[simp] theorem State.setProgram_ecc (pf : Nat) (d : Fill) (is : Store (BitVec 14)) (ds : Store Half) : (s.setProgram pf d is ds).ecc = s.ecc := by
  rfl
@[simp] theorem State.setProgram_banks (pf : Nat) (d : Fill) (is : Store (BitVec 14)) (ds : Store Half) : (s.setProgram pf d is ds).banks = s.banks := by
  rfl
@[simp] theorem State.setProgram_dw (pf : Nat) (d : Fill) (is : Store (BitVec 14)) (ds : Store Half) : (s.setProgram pf d is ds).dw = s.dw := by
  rfl
@[simp] theorem State.setProgram_lanes (pf : Nat) (d : Fill) (is : Store (BitVec 14)) (ds : Store Half) : (s.setProgram pf d is ds).lanes = s.lanes := by
  rfl
@[simp] theorem State.setProgram_evt (pf : Nat) (d : Fill) (is : Store (BitVec 14)) (ds : Store Half) : (s.setProgram pf d is ds).evt = s.evt := by
  rfl
@[simp] theorem State.setProgram_host (pf : Nat) (d : Fill) (is : Store (BitVec 14)) (ds : Store Half) : (s.setProgram pf d is ds).host = s.host := by
  rfl
@[simp] theorem State.setProgram_cairn (pf : Nat) (d : Fill) (is : Store (BitVec 14)) (ds : Store Half) : (s.setProgram pf d is ds).cairn = s.cairn := by
  rfl
@[simp] theorem State.setProgram_edge (pf : Nat) (d : Fill) (is : Store (BitVec 14)) (ds : Store Half) : (s.setProgram pf d is ds).edge = s.edge := by
  rfl
@[simp] theorem State.setProgram_hub (pf : Nat) (d : Fill) (is : Store (BitVec 14)) (ds : Store Half) : (s.setProgram pf d is ds).hub = s.hub := by
  rfl

/-! `parityFail` changes `regs`, `out`, `evt`, `cairn`, `arr` alone. -/

@[simp] theorem parityFail_pending (pf a : Nat) (m : BitVec 64) (b : Bool) : (parityFail pf a m b s).pending = s.pending := by
  unfold parityFail; dsimp only; (repeat' split) <;> simp
@[simp] theorem parityFail_freeCount (pf a : Nat) (m : BitVec 64) (b : Bool) : (parityFail pf a m b s).freeCount = s.freeCount := by
  unfold parityFail; dsimp only; (repeat' split) <;> simp
@[simp] theorem parityFail_mode (pf a : Nat) (m : BitVec 64) (b : Bool) : (parityFail pf a m b s).mode = s.mode := by
  unfold parityFail; dsimp only; (repeat' split) <;> simp
@[simp] theorem parityFail_phase (pf a : Nat) (m : BitVec 64) (b : Bool) : (parityFail pf a m b s).phase = s.phase := by
  unfold parityFail; dsimp only; (repeat' split) <;> simp
@[simp] theorem parityFail_fwVer (pf a : Nat) (m : BitVec 64) (b : Bool) : (parityFail pf a m b s).fwVer = s.fwVer := by
  unfold parityFail; dsimp only; (repeat' split) <;> simp
@[simp] theorem parityFail_frame (pf a : Nat) (m : BitVec 64) (b : Bool) : (parityFail pf a m b s).frame = s.frame := by
  unfold parityFail; dsimp only; (repeat' split) <;> simp
@[simp] theorem parityFail_eng (pf a : Nat) (m : BitVec 64) (b : Bool) : (parityFail pf a m b s).eng = s.eng := by
  unfold parityFail; dsimp only; (repeat' split) <;> simp
@[simp] theorem parityFail_ldr (pf a : Nat) (m : BitVec 64) (b : Bool) : (parityFail pf a m b s).ldr = s.ldr := by
  unfold parityFail; dsimp only; (repeat' split) <;> simp
@[simp] theorem parityFail_mem (pf a : Nat) (m : BitVec 64) (b : Bool) : (parityFail pf a m b s).mem = s.mem := by
  unfold parityFail; dsimp only; (repeat' split) <;> simp
@[simp] theorem parityFail_ecc (pf a : Nat) (m : BitVec 64) (b : Bool) : (parityFail pf a m b s).ecc = s.ecc := by
  unfold parityFail; dsimp only; (repeat' split) <;> simp
@[simp] theorem parityFail_banks (pf a : Nat) (m : BitVec 64) (b : Bool) : (parityFail pf a m b s).banks = s.banks := by
  unfold parityFail; dsimp only; (repeat' split) <;> simp
@[simp] theorem parityFail_dw (pf a : Nat) (m : BitVec 64) (b : Bool) : (parityFail pf a m b s).dw = s.dw := by
  unfold parityFail; dsimp only; (repeat' split) <;> simp
@[simp] theorem parityFail_lanes (pf a : Nat) (m : BitVec 64) (b : Bool) : (parityFail pf a m b s).lanes = s.lanes := by
  unfold parityFail; dsimp only; (repeat' split) <;> simp
@[simp] theorem parityFail_host (pf a : Nat) (m : BitVec 64) (b : Bool) : (parityFail pf a m b s).host = s.host := by
  unfold parityFail; dsimp only; (repeat' split) <;> simp
@[simp] theorem parityFail_edge (pf a : Nat) (m : BitVec 64) (b : Bool) : (parityFail pf a m b s).edge = s.edge := by
  unfold parityFail; dsimp only; (repeat' split) <;> simp
@[simp] theorem parityFail_hub (pf a : Nat) (m : BitVec 64) (b : Bool) : (parityFail pf a m b s).hub = s.hub := by
  unfold parityFail; dsimp only; (repeat' split) <;> simp

/-! `readPlane` changes `regs`, `out`, `evt`, `cairn`, `arr` alone. -/

@[simp] theorem readPlane_pending (pf a : Nat) : ((readPlane pf a s).2).pending = s.pending := by
  simp [readPlane]
@[simp] theorem readPlane_freeCount (pf a : Nat) : ((readPlane pf a s).2).freeCount = s.freeCount := by
  simp [readPlane]
@[simp] theorem readPlane_mode (pf a : Nat) : ((readPlane pf a s).2).mode = s.mode := by
  simp [readPlane]
@[simp] theorem readPlane_phase (pf a : Nat) : ((readPlane pf a s).2).phase = s.phase := by
  simp [readPlane]
@[simp] theorem readPlane_fwVer (pf a : Nat) : ((readPlane pf a s).2).fwVer = s.fwVer := by
  simp [readPlane]
@[simp] theorem readPlane_frame (pf a : Nat) : ((readPlane pf a s).2).frame = s.frame := by
  simp [readPlane]
@[simp] theorem readPlane_eng (pf a : Nat) : ((readPlane pf a s).2).eng = s.eng := by
  simp [readPlane]
@[simp] theorem readPlane_ldr (pf a : Nat) : ((readPlane pf a s).2).ldr = s.ldr := by
  simp [readPlane]
@[simp] theorem readPlane_mem (pf a : Nat) : ((readPlane pf a s).2).mem = s.mem := by
  simp [readPlane]
@[simp] theorem readPlane_ecc (pf a : Nat) : ((readPlane pf a s).2).ecc = s.ecc := by
  simp [readPlane]
@[simp] theorem readPlane_banks (pf a : Nat) : ((readPlane pf a s).2).banks = s.banks := by
  simp [readPlane]
@[simp] theorem readPlane_dw (pf a : Nat) : ((readPlane pf a s).2).dw = s.dw := by
  simp [readPlane]
@[simp] theorem readPlane_lanes (pf a : Nat) : ((readPlane pf a s).2).lanes = s.lanes := by
  simp [readPlane]
@[simp] theorem readPlane_host (pf a : Nat) : ((readPlane pf a s).2).host = s.host := by
  simp [readPlane]
@[simp] theorem readPlane_edge (pf a : Nat) : ((readPlane pf a s).2).edge = s.edge := by
  simp [readPlane]
@[simp] theorem readPlane_hub (pf a : Nat) : ((readPlane pf a s).2).hub = s.hub := by
  simp [readPlane]

/-! `readRow` changes `regs`, `out`, `evt`, `cairn`, `arr` alone. -/

@[simp] theorem readRow_pending (pf a y : Nat) : ((readRow pf a y s).2).pending = s.pending := by
  simp [readRow]
@[simp] theorem readRow_freeCount (pf a y : Nat) : ((readRow pf a y s).2).freeCount = s.freeCount := by
  simp [readRow]
@[simp] theorem readRow_mode (pf a y : Nat) : ((readRow pf a y s).2).mode = s.mode := by
  simp [readRow]
@[simp] theorem readRow_phase (pf a y : Nat) : ((readRow pf a y s).2).phase = s.phase := by
  simp [readRow]
@[simp] theorem readRow_fwVer (pf a y : Nat) : ((readRow pf a y s).2).fwVer = s.fwVer := by
  simp [readRow]
@[simp] theorem readRow_frame (pf a y : Nat) : ((readRow pf a y s).2).frame = s.frame := by
  simp [readRow]
@[simp] theorem readRow_eng (pf a y : Nat) : ((readRow pf a y s).2).eng = s.eng := by
  simp [readRow]
@[simp] theorem readRow_ldr (pf a y : Nat) : ((readRow pf a y s).2).ldr = s.ldr := by
  simp [readRow]
@[simp] theorem readRow_mem (pf a y : Nat) : ((readRow pf a y s).2).mem = s.mem := by
  simp [readRow]
@[simp] theorem readRow_ecc (pf a y : Nat) : ((readRow pf a y s).2).ecc = s.ecc := by
  simp [readRow]
@[simp] theorem readRow_banks (pf a y : Nat) : ((readRow pf a y s).2).banks = s.banks := by
  simp [readRow]
@[simp] theorem readRow_dw (pf a y : Nat) : ((readRow pf a y s).2).dw = s.dw := by
  simp [readRow]
@[simp] theorem readRow_lanes (pf a y : Nat) : ((readRow pf a y s).2).lanes = s.lanes := by
  simp [readRow]
@[simp] theorem readRow_host (pf a y : Nat) : ((readRow pf a y s).2).host = s.host := by
  simp [readRow]
@[simp] theorem readRow_edge (pf a y : Nat) : ((readRow pf a y s).2).edge = s.edge := by
  simp [readRow]
@[simp] theorem readRow_hub (pf a y : Nat) : ((readRow pf a y s).2).hub = s.hub := by
  simp [readRow]

/-! `writePlane` changes `arr` alone. -/

@[simp] theorem writePlane_pending (pf a : Nat) (en v : Plane) : (writePlane pf a en v s).pending = s.pending := by
  unfold writePlane; dsimp only; split <;> simp
@[simp] theorem writePlane_out (pf a : Nat) (en v : Plane) : (writePlane pf a en v s).out = s.out := by
  unfold writePlane; dsimp only; split <;> simp
@[simp] theorem writePlane_freeCount (pf a : Nat) (en v : Plane) : (writePlane pf a en v s).freeCount = s.freeCount := by
  unfold writePlane; dsimp only; split <;> simp
@[simp] theorem writePlane_mode (pf a : Nat) (en v : Plane) : (writePlane pf a en v s).mode = s.mode := by
  unfold writePlane; dsimp only; split <;> simp
@[simp] theorem writePlane_phase (pf a : Nat) (en v : Plane) : (writePlane pf a en v s).phase = s.phase := by
  unfold writePlane; dsimp only; split <;> simp
@[simp] theorem writePlane_fwVer (pf a : Nat) (en v : Plane) : (writePlane pf a en v s).fwVer = s.fwVer := by
  unfold writePlane; dsimp only; split <;> simp
@[simp] theorem writePlane_regs (pf a : Nat) (en v : Plane) : (writePlane pf a en v s).regs = s.regs := by
  unfold writePlane; dsimp only; split <;> simp
@[simp] theorem writePlane_frame (pf a : Nat) (en v : Plane) : (writePlane pf a en v s).frame = s.frame := by
  unfold writePlane; dsimp only; split <;> simp
@[simp] theorem writePlane_eng (pf a : Nat) (en v : Plane) : (writePlane pf a en v s).eng = s.eng := by
  unfold writePlane; dsimp only; split <;> simp
@[simp] theorem writePlane_ldr (pf a : Nat) (en v : Plane) : (writePlane pf a en v s).ldr = s.ldr := by
  unfold writePlane; dsimp only; split <;> simp
@[simp] theorem writePlane_mem (pf a : Nat) (en v : Plane) : (writePlane pf a en v s).mem = s.mem := by
  unfold writePlane; dsimp only; split <;> simp
@[simp] theorem writePlane_ecc (pf a : Nat) (en v : Plane) : (writePlane pf a en v s).ecc = s.ecc := by
  unfold writePlane; dsimp only; split <;> simp
@[simp] theorem writePlane_banks (pf a : Nat) (en v : Plane) : (writePlane pf a en v s).banks = s.banks := by
  unfold writePlane; dsimp only; split <;> simp
@[simp] theorem writePlane_dw (pf a : Nat) (en v : Plane) : (writePlane pf a en v s).dw = s.dw := by
  unfold writePlane; dsimp only; split <;> simp
@[simp] theorem writePlane_lanes (pf a : Nat) (en v : Plane) : (writePlane pf a en v s).lanes = s.lanes := by
  unfold writePlane; dsimp only; split <;> simp
@[simp] theorem writePlane_evt (pf a : Nat) (en v : Plane) : (writePlane pf a en v s).evt = s.evt := by
  unfold writePlane; dsimp only; split <;> simp
@[simp] theorem writePlane_host (pf a : Nat) (en v : Plane) : (writePlane pf a en v s).host = s.host := by
  unfold writePlane; dsimp only; split <;> simp
@[simp] theorem writePlane_cairn (pf a : Nat) (en v : Plane) : (writePlane pf a en v s).cairn = s.cairn := by
  unfold writePlane; dsimp only; split <;> simp
@[simp] theorem writePlane_edge (pf a : Nat) (en v : Plane) : (writePlane pf a en v s).edge = s.edge := by
  unfold writePlane; dsimp only; split <;> simp
@[simp] theorem writePlane_hub (pf a : Nat) (en v : Plane) : (writePlane pf a en v s).hub = s.hub := by
  unfold writePlane; dsimp only; split <;> simp

/-! `snapRow` changes `arr` alone. -/

@[simp] theorem snapRow_pending (pf a y : Nat) (r : Dword) : (snapRow pf a y r s).pending = s.pending := by
  unfold snapRow; (repeat' split) <;> simp
@[simp] theorem snapRow_out (pf a y : Nat) (r : Dword) : (snapRow pf a y r s).out = s.out := by
  unfold snapRow; (repeat' split) <;> simp
@[simp] theorem snapRow_freeCount (pf a y : Nat) (r : Dword) : (snapRow pf a y r s).freeCount = s.freeCount := by
  unfold snapRow; (repeat' split) <;> simp
@[simp] theorem snapRow_mode (pf a y : Nat) (r : Dword) : (snapRow pf a y r s).mode = s.mode := by
  unfold snapRow; (repeat' split) <;> simp
@[simp] theorem snapRow_phase (pf a y : Nat) (r : Dword) : (snapRow pf a y r s).phase = s.phase := by
  unfold snapRow; (repeat' split) <;> simp
@[simp] theorem snapRow_fwVer (pf a y : Nat) (r : Dword) : (snapRow pf a y r s).fwVer = s.fwVer := by
  unfold snapRow; (repeat' split) <;> simp
@[simp] theorem snapRow_regs (pf a y : Nat) (r : Dword) : (snapRow pf a y r s).regs = s.regs := by
  unfold snapRow; (repeat' split) <;> simp
@[simp] theorem snapRow_frame (pf a y : Nat) (r : Dword) : (snapRow pf a y r s).frame = s.frame := by
  unfold snapRow; (repeat' split) <;> simp
@[simp] theorem snapRow_eng (pf a y : Nat) (r : Dword) : (snapRow pf a y r s).eng = s.eng := by
  unfold snapRow; (repeat' split) <;> simp
@[simp] theorem snapRow_ldr (pf a y : Nat) (r : Dword) : (snapRow pf a y r s).ldr = s.ldr := by
  unfold snapRow; (repeat' split) <;> simp
@[simp] theorem snapRow_mem (pf a y : Nat) (r : Dword) : (snapRow pf a y r s).mem = s.mem := by
  unfold snapRow; (repeat' split) <;> simp
@[simp] theorem snapRow_ecc (pf a y : Nat) (r : Dword) : (snapRow pf a y r s).ecc = s.ecc := by
  unfold snapRow; (repeat' split) <;> simp
@[simp] theorem snapRow_banks (pf a y : Nat) (r : Dword) : (snapRow pf a y r s).banks = s.banks := by
  unfold snapRow; (repeat' split) <;> simp
@[simp] theorem snapRow_dw (pf a y : Nat) (r : Dword) : (snapRow pf a y r s).dw = s.dw := by
  unfold snapRow; (repeat' split) <;> simp
@[simp] theorem snapRow_lanes (pf a y : Nat) (r : Dword) : (snapRow pf a y r s).lanes = s.lanes := by
  unfold snapRow; (repeat' split) <;> simp
@[simp] theorem snapRow_evt (pf a y : Nat) (r : Dword) : (snapRow pf a y r s).evt = s.evt := by
  unfold snapRow; (repeat' split) <;> simp
@[simp] theorem snapRow_host (pf a y : Nat) (r : Dword) : (snapRow pf a y r s).host = s.host := by
  unfold snapRow; (repeat' split) <;> simp
@[simp] theorem snapRow_cairn (pf a y : Nat) (r : Dword) : (snapRow pf a y r s).cairn = s.cairn := by
  unfold snapRow; (repeat' split) <;> simp
@[simp] theorem snapRow_edge (pf a y : Nat) (r : Dword) : (snapRow pf a y r s).edge = s.edge := by
  unfold snapRow; (repeat' split) <;> simp
@[simp] theorem snapRow_hub (pf a y : Nat) (r : Dword) : (snapRow pf a y r s).hub = s.hub := by
  unfold snapRow; (repeat' split) <;> simp

/-! `writeRow` changes `arr` alone. -/

@[simp] theorem writeRow_pending (pf a y : Nat) (r : Dword) (b : Bool) : (writeRow pf a y r b s).pending = s.pending := by
  unfold writeRow; dsimp only; (repeat' split) <;> simp
@[simp] theorem writeRow_out (pf a y : Nat) (r : Dword) (b : Bool) : (writeRow pf a y r b s).out = s.out := by
  unfold writeRow; dsimp only; (repeat' split) <;> simp
@[simp] theorem writeRow_freeCount (pf a y : Nat) (r : Dword) (b : Bool) : (writeRow pf a y r b s).freeCount = s.freeCount := by
  unfold writeRow; dsimp only; (repeat' split) <;> simp
@[simp] theorem writeRow_mode (pf a y : Nat) (r : Dword) (b : Bool) : (writeRow pf a y r b s).mode = s.mode := by
  unfold writeRow; dsimp only; (repeat' split) <;> simp
@[simp] theorem writeRow_phase (pf a y : Nat) (r : Dword) (b : Bool) : (writeRow pf a y r b s).phase = s.phase := by
  unfold writeRow; dsimp only; (repeat' split) <;> simp
@[simp] theorem writeRow_fwVer (pf a y : Nat) (r : Dword) (b : Bool) : (writeRow pf a y r b s).fwVer = s.fwVer := by
  unfold writeRow; dsimp only; (repeat' split) <;> simp
@[simp] theorem writeRow_regs (pf a y : Nat) (r : Dword) (b : Bool) : (writeRow pf a y r b s).regs = s.regs := by
  unfold writeRow; dsimp only; (repeat' split) <;> simp
@[simp] theorem writeRow_frame (pf a y : Nat) (r : Dword) (b : Bool) : (writeRow pf a y r b s).frame = s.frame := by
  unfold writeRow; dsimp only; (repeat' split) <;> simp
@[simp] theorem writeRow_eng (pf a y : Nat) (r : Dword) (b : Bool) : (writeRow pf a y r b s).eng = s.eng := by
  unfold writeRow; dsimp only; (repeat' split) <;> simp
@[simp] theorem writeRow_ldr (pf a y : Nat) (r : Dword) (b : Bool) : (writeRow pf a y r b s).ldr = s.ldr := by
  unfold writeRow; dsimp only; (repeat' split) <;> simp
@[simp] theorem writeRow_mem (pf a y : Nat) (r : Dword) (b : Bool) : (writeRow pf a y r b s).mem = s.mem := by
  unfold writeRow; dsimp only; (repeat' split) <;> simp
@[simp] theorem writeRow_ecc (pf a y : Nat) (r : Dword) (b : Bool) : (writeRow pf a y r b s).ecc = s.ecc := by
  unfold writeRow; dsimp only; (repeat' split) <;> simp
@[simp] theorem writeRow_banks (pf a y : Nat) (r : Dword) (b : Bool) : (writeRow pf a y r b s).banks = s.banks := by
  unfold writeRow; dsimp only; (repeat' split) <;> simp
@[simp] theorem writeRow_dw (pf a y : Nat) (r : Dword) (b : Bool) : (writeRow pf a y r b s).dw = s.dw := by
  unfold writeRow; dsimp only; (repeat' split) <;> simp
@[simp] theorem writeRow_lanes (pf a y : Nat) (r : Dword) (b : Bool) : (writeRow pf a y r b s).lanes = s.lanes := by
  unfold writeRow; dsimp only; (repeat' split) <;> simp
@[simp] theorem writeRow_evt (pf a y : Nat) (r : Dword) (b : Bool) : (writeRow pf a y r b s).evt = s.evt := by
  unfold writeRow; dsimp only; (repeat' split) <;> simp
@[simp] theorem writeRow_host (pf a y : Nat) (r : Dword) (b : Bool) : (writeRow pf a y r b s).host = s.host := by
  unfold writeRow; dsimp only; (repeat' split) <;> simp
@[simp] theorem writeRow_cairn (pf a y : Nat) (r : Dword) (b : Bool) : (writeRow pf a y r b s).cairn = s.cairn := by
  unfold writeRow; dsimp only; (repeat' split) <;> simp
@[simp] theorem writeRow_edge (pf a y : Nat) (r : Dword) (b : Bool) : (writeRow pf a y r b s).edge = s.edge := by
  unfold writeRow; dsimp only; (repeat' split) <;> simp
@[simp] theorem writeRow_hub (pf a y : Nat) (r : Dword) (b : Bool) : (writeRow pf a y r b s).hub = s.hub := by
  unfold writeRow; dsimp only; (repeat' split) <;> simp

/-! `setSreg` changes `arr` alone. -/

@[simp] theorem setSreg_pending (pf : Nat) (r : Fin 8) (v : Half) : (setSreg pf r v s).pending = s.pending := by
  rfl
@[simp] theorem setSreg_out (pf : Nat) (r : Fin 8) (v : Half) : (setSreg pf r v s).out = s.out := by
  rfl
@[simp] theorem setSreg_freeCount (pf : Nat) (r : Fin 8) (v : Half) : (setSreg pf r v s).freeCount = s.freeCount := by
  rfl
@[simp] theorem setSreg_mode (pf : Nat) (r : Fin 8) (v : Half) : (setSreg pf r v s).mode = s.mode := by
  rfl
@[simp] theorem setSreg_phase (pf : Nat) (r : Fin 8) (v : Half) : (setSreg pf r v s).phase = s.phase := by
  rfl
@[simp] theorem setSreg_fwVer (pf : Nat) (r : Fin 8) (v : Half) : (setSreg pf r v s).fwVer = s.fwVer := by
  rfl
@[simp] theorem setSreg_regs (pf : Nat) (r : Fin 8) (v : Half) : (setSreg pf r v s).regs = s.regs := by
  rfl
@[simp] theorem setSreg_frame (pf : Nat) (r : Fin 8) (v : Half) : (setSreg pf r v s).frame = s.frame := by
  rfl
@[simp] theorem setSreg_eng (pf : Nat) (r : Fin 8) (v : Half) : (setSreg pf r v s).eng = s.eng := by
  rfl
@[simp] theorem setSreg_ldr (pf : Nat) (r : Fin 8) (v : Half) : (setSreg pf r v s).ldr = s.ldr := by
  rfl
@[simp] theorem setSreg_mem (pf : Nat) (r : Fin 8) (v : Half) : (setSreg pf r v s).mem = s.mem := by
  rfl
@[simp] theorem setSreg_ecc (pf : Nat) (r : Fin 8) (v : Half) : (setSreg pf r v s).ecc = s.ecc := by
  rfl
@[simp] theorem setSreg_banks (pf : Nat) (r : Fin 8) (v : Half) : (setSreg pf r v s).banks = s.banks := by
  rfl
@[simp] theorem setSreg_dw (pf : Nat) (r : Fin 8) (v : Half) : (setSreg pf r v s).dw = s.dw := by
  rfl
@[simp] theorem setSreg_lanes (pf : Nat) (r : Fin 8) (v : Half) : (setSreg pf r v s).lanes = s.lanes := by
  rfl
@[simp] theorem setSreg_evt (pf : Nat) (r : Fin 8) (v : Half) : (setSreg pf r v s).evt = s.evt := by
  rfl
@[simp] theorem setSreg_host (pf : Nat) (r : Fin 8) (v : Half) : (setSreg pf r v s).host = s.host := by
  rfl
@[simp] theorem setSreg_cairn (pf : Nat) (r : Fin 8) (v : Half) : (setSreg pf r v s).cairn = s.cairn := by
  rfl
@[simp] theorem setSreg_edge (pf : Nat) (r : Fin 8) (v : Half) : (setSreg pf r v s).edge = s.edge := by
  rfl
@[simp] theorem setSreg_hub (pf : Nat) (r : Fin 8) (v : Half) : (setSreg pf r v s).hub = s.hub := by
  rfl

/-! `modPe` changes `arr` alone. -/

@[simp] theorem modPe_pending (pf : Nat) (g : PeRegs → PeRegs) : (modPe pf g s).pending = s.pending := by
  rfl
@[simp] theorem modPe_out (pf : Nat) (g : PeRegs → PeRegs) : (modPe pf g s).out = s.out := by
  rfl
@[simp] theorem modPe_freeCount (pf : Nat) (g : PeRegs → PeRegs) : (modPe pf g s).freeCount = s.freeCount := by
  rfl
@[simp] theorem modPe_mode (pf : Nat) (g : PeRegs → PeRegs) : (modPe pf g s).mode = s.mode := by
  rfl
@[simp] theorem modPe_phase (pf : Nat) (g : PeRegs → PeRegs) : (modPe pf g s).phase = s.phase := by
  rfl
@[simp] theorem modPe_fwVer (pf : Nat) (g : PeRegs → PeRegs) : (modPe pf g s).fwVer = s.fwVer := by
  rfl
@[simp] theorem modPe_regs (pf : Nat) (g : PeRegs → PeRegs) : (modPe pf g s).regs = s.regs := by
  rfl
@[simp] theorem modPe_frame (pf : Nat) (g : PeRegs → PeRegs) : (modPe pf g s).frame = s.frame := by
  rfl
@[simp] theorem modPe_eng (pf : Nat) (g : PeRegs → PeRegs) : (modPe pf g s).eng = s.eng := by
  rfl
@[simp] theorem modPe_ldr (pf : Nat) (g : PeRegs → PeRegs) : (modPe pf g s).ldr = s.ldr := by
  rfl
@[simp] theorem modPe_mem (pf : Nat) (g : PeRegs → PeRegs) : (modPe pf g s).mem = s.mem := by
  rfl
@[simp] theorem modPe_ecc (pf : Nat) (g : PeRegs → PeRegs) : (modPe pf g s).ecc = s.ecc := by
  rfl
@[simp] theorem modPe_banks (pf : Nat) (g : PeRegs → PeRegs) : (modPe pf g s).banks = s.banks := by
  rfl
@[simp] theorem modPe_dw (pf : Nat) (g : PeRegs → PeRegs) : (modPe pf g s).dw = s.dw := by
  rfl
@[simp] theorem modPe_lanes (pf : Nat) (g : PeRegs → PeRegs) : (modPe pf g s).lanes = s.lanes := by
  rfl
@[simp] theorem modPe_evt (pf : Nat) (g : PeRegs → PeRegs) : (modPe pf g s).evt = s.evt := by
  rfl
@[simp] theorem modPe_host (pf : Nat) (g : PeRegs → PeRegs) : (modPe pf g s).host = s.host := by
  rfl
@[simp] theorem modPe_cairn (pf : Nat) (g : PeRegs → PeRegs) : (modPe pf g s).cairn = s.cairn := by
  rfl
@[simp] theorem modPe_edge (pf : Nat) (g : PeRegs → PeRegs) : (modPe pf g s).edge = s.edge := by
  rfl
@[simp] theorem modPe_hub (pf : Nat) (g : PeRegs → PeRegs) : (modPe pf g s).hub = s.hub := by
  rfl

/-! `landLoad` changes `arr` alone. -/

@[simp] theorem landLoad_pending (pf : Nat) (l : Option (Fin 8 × Half)) (b : Bool) : (landLoad pf l b s).pending = s.pending := by
  unfold landLoad; split <;> simp
@[simp] theorem landLoad_out (pf : Nat) (l : Option (Fin 8 × Half)) (b : Bool) : (landLoad pf l b s).out = s.out := by
  unfold landLoad; split <;> simp
@[simp] theorem landLoad_freeCount (pf : Nat) (l : Option (Fin 8 × Half)) (b : Bool) : (landLoad pf l b s).freeCount = s.freeCount := by
  unfold landLoad; split <;> simp
@[simp] theorem landLoad_mode (pf : Nat) (l : Option (Fin 8 × Half)) (b : Bool) : (landLoad pf l b s).mode = s.mode := by
  unfold landLoad; split <;> simp
@[simp] theorem landLoad_phase (pf : Nat) (l : Option (Fin 8 × Half)) (b : Bool) : (landLoad pf l b s).phase = s.phase := by
  unfold landLoad; split <;> simp
@[simp] theorem landLoad_fwVer (pf : Nat) (l : Option (Fin 8 × Half)) (b : Bool) : (landLoad pf l b s).fwVer = s.fwVer := by
  unfold landLoad; split <;> simp
@[simp] theorem landLoad_regs (pf : Nat) (l : Option (Fin 8 × Half)) (b : Bool) : (landLoad pf l b s).regs = s.regs := by
  unfold landLoad; split <;> simp
@[simp] theorem landLoad_frame (pf : Nat) (l : Option (Fin 8 × Half)) (b : Bool) : (landLoad pf l b s).frame = s.frame := by
  unfold landLoad; split <;> simp
@[simp] theorem landLoad_eng (pf : Nat) (l : Option (Fin 8 × Half)) (b : Bool) : (landLoad pf l b s).eng = s.eng := by
  unfold landLoad; split <;> simp
@[simp] theorem landLoad_ldr (pf : Nat) (l : Option (Fin 8 × Half)) (b : Bool) : (landLoad pf l b s).ldr = s.ldr := by
  unfold landLoad; split <;> simp
@[simp] theorem landLoad_mem (pf : Nat) (l : Option (Fin 8 × Half)) (b : Bool) : (landLoad pf l b s).mem = s.mem := by
  unfold landLoad; split <;> simp
@[simp] theorem landLoad_ecc (pf : Nat) (l : Option (Fin 8 × Half)) (b : Bool) : (landLoad pf l b s).ecc = s.ecc := by
  unfold landLoad; split <;> simp
@[simp] theorem landLoad_banks (pf : Nat) (l : Option (Fin 8 × Half)) (b : Bool) : (landLoad pf l b s).banks = s.banks := by
  unfold landLoad; split <;> simp
@[simp] theorem landLoad_dw (pf : Nat) (l : Option (Fin 8 × Half)) (b : Bool) : (landLoad pf l b s).dw = s.dw := by
  unfold landLoad; split <;> simp
@[simp] theorem landLoad_lanes (pf : Nat) (l : Option (Fin 8 × Half)) (b : Bool) : (landLoad pf l b s).lanes = s.lanes := by
  unfold landLoad; split <;> simp
@[simp] theorem landLoad_evt (pf : Nat) (l : Option (Fin 8 × Half)) (b : Bool) : (landLoad pf l b s).evt = s.evt := by
  unfold landLoad; split <;> simp
@[simp] theorem landLoad_host (pf : Nat) (l : Option (Fin 8 × Half)) (b : Bool) : (landLoad pf l b s).host = s.host := by
  unfold landLoad; split <;> simp
@[simp] theorem landLoad_cairn (pf : Nat) (l : Option (Fin 8 × Half)) (b : Bool) : (landLoad pf l b s).cairn = s.cairn := by
  unfold landLoad; split <;> simp
@[simp] theorem landLoad_edge (pf : Nat) (l : Option (Fin 8 × Half)) (b : Bool) : (landLoad pf l b s).edge = s.edge := by
  unfold landLoad; split <;> simp
@[simp] theorem landLoad_hub (pf : Nat) (l : Option (Fin 8 × Half)) (b : Bool) : (landLoad pf l b s).hub = s.hub := by
  unfold landLoad; split <;> simp

/-! `holdIssue` changes `arr` alone. -/

@[simp] theorem holdIssue_pending (c : Ictx) : (holdIssue c s).pending = s.pending := by
  simp [holdIssue]
@[simp] theorem holdIssue_out (c : Ictx) : (holdIssue c s).out = s.out := by
  simp [holdIssue]
@[simp] theorem holdIssue_freeCount (c : Ictx) : (holdIssue c s).freeCount = s.freeCount := by
  simp [holdIssue]
@[simp] theorem holdIssue_mode (c : Ictx) : (holdIssue c s).mode = s.mode := by
  simp [holdIssue]
@[simp] theorem holdIssue_phase (c : Ictx) : (holdIssue c s).phase = s.phase := by
  simp [holdIssue]
@[simp] theorem holdIssue_fwVer (c : Ictx) : (holdIssue c s).fwVer = s.fwVer := by
  simp [holdIssue]
@[simp] theorem holdIssue_regs (c : Ictx) : (holdIssue c s).regs = s.regs := by
  simp [holdIssue]
@[simp] theorem holdIssue_frame (c : Ictx) : (holdIssue c s).frame = s.frame := by
  simp [holdIssue]
@[simp] theorem holdIssue_eng (c : Ictx) : (holdIssue c s).eng = s.eng := by
  simp [holdIssue]
@[simp] theorem holdIssue_ldr (c : Ictx) : (holdIssue c s).ldr = s.ldr := by
  simp [holdIssue]
@[simp] theorem holdIssue_mem (c : Ictx) : (holdIssue c s).mem = s.mem := by
  simp [holdIssue]
@[simp] theorem holdIssue_ecc (c : Ictx) : (holdIssue c s).ecc = s.ecc := by
  simp [holdIssue]
@[simp] theorem holdIssue_banks (c : Ictx) : (holdIssue c s).banks = s.banks := by
  simp [holdIssue]
@[simp] theorem holdIssue_dw (c : Ictx) : (holdIssue c s).dw = s.dw := by
  simp [holdIssue]
@[simp] theorem holdIssue_lanes (c : Ictx) : (holdIssue c s).lanes = s.lanes := by
  simp [holdIssue]
@[simp] theorem holdIssue_evt (c : Ictx) : (holdIssue c s).evt = s.evt := by
  simp [holdIssue]
@[simp] theorem holdIssue_host (c : Ictx) : (holdIssue c s).host = s.host := by
  simp [holdIssue]
@[simp] theorem holdIssue_cairn (c : Ictx) : (holdIssue c s).cairn = s.cairn := by
  simp [holdIssue]
@[simp] theorem holdIssue_edge (c : Ictx) : (holdIssue c s).edge = s.edge := by
  simp [holdIssue]
@[simp] theorem holdIssue_hub (c : Ictx) : (holdIssue c s).hub = s.hub := by
  simp [holdIssue]

/-! `endStopped` changes `arr` alone. -/

@[simp] theorem endStopped_pending (c : Ictx) : (endStopped c s).pending = s.pending := by
  unfold endStopped; split <;> simp
@[simp] theorem endStopped_out (c : Ictx) : (endStopped c s).out = s.out := by
  unfold endStopped; split <;> simp
@[simp] theorem endStopped_freeCount (c : Ictx) : (endStopped c s).freeCount = s.freeCount := by
  unfold endStopped; split <;> simp
@[simp] theorem endStopped_mode (c : Ictx) : (endStopped c s).mode = s.mode := by
  unfold endStopped; split <;> simp
@[simp] theorem endStopped_phase (c : Ictx) : (endStopped c s).phase = s.phase := by
  unfold endStopped; split <;> simp
@[simp] theorem endStopped_fwVer (c : Ictx) : (endStopped c s).fwVer = s.fwVer := by
  unfold endStopped; split <;> simp
@[simp] theorem endStopped_regs (c : Ictx) : (endStopped c s).regs = s.regs := by
  unfold endStopped; split <;> simp
@[simp] theorem endStopped_frame (c : Ictx) : (endStopped c s).frame = s.frame := by
  unfold endStopped; split <;> simp
@[simp] theorem endStopped_eng (c : Ictx) : (endStopped c s).eng = s.eng := by
  unfold endStopped; split <;> simp
@[simp] theorem endStopped_ldr (c : Ictx) : (endStopped c s).ldr = s.ldr := by
  unfold endStopped; split <;> simp
@[simp] theorem endStopped_mem (c : Ictx) : (endStopped c s).mem = s.mem := by
  unfold endStopped; split <;> simp
@[simp] theorem endStopped_ecc (c : Ictx) : (endStopped c s).ecc = s.ecc := by
  unfold endStopped; split <;> simp
@[simp] theorem endStopped_banks (c : Ictx) : (endStopped c s).banks = s.banks := by
  unfold endStopped; split <;> simp
@[simp] theorem endStopped_dw (c : Ictx) : (endStopped c s).dw = s.dw := by
  unfold endStopped; split <;> simp
@[simp] theorem endStopped_lanes (c : Ictx) : (endStopped c s).lanes = s.lanes := by
  unfold endStopped; split <;> simp
@[simp] theorem endStopped_evt (c : Ictx) : (endStopped c s).evt = s.evt := by
  unfold endStopped; split <;> simp
@[simp] theorem endStopped_host (c : Ictx) : (endStopped c s).host = s.host := by
  unfold endStopped; split <;> simp
@[simp] theorem endStopped_cairn (c : Ictx) : (endStopped c s).cairn = s.cairn := by
  unfold endStopped; split <;> simp
@[simp] theorem endStopped_edge (c : Ictx) : (endStopped c s).edge = s.edge := by
  unfold endStopped; split <;> simp
@[simp] theorem endStopped_hub (c : Ictx) : (endStopped c s).hub = s.hub := by
  unfold endStopped; split <;> simp

/-! `abandonRepeat` changes `arr` alone. -/

@[simp] theorem abandonRepeat_pending (c : Ictx) : (abandonRepeat c s).pending = s.pending := by
  simp [abandonRepeat]
@[simp] theorem abandonRepeat_out (c : Ictx) : (abandonRepeat c s).out = s.out := by
  simp [abandonRepeat]
@[simp] theorem abandonRepeat_freeCount (c : Ictx) : (abandonRepeat c s).freeCount = s.freeCount := by
  simp [abandonRepeat]
@[simp] theorem abandonRepeat_mode (c : Ictx) : (abandonRepeat c s).mode = s.mode := by
  simp [abandonRepeat]
@[simp] theorem abandonRepeat_phase (c : Ictx) : (abandonRepeat c s).phase = s.phase := by
  simp [abandonRepeat]
@[simp] theorem abandonRepeat_fwVer (c : Ictx) : (abandonRepeat c s).fwVer = s.fwVer := by
  simp [abandonRepeat]
@[simp] theorem abandonRepeat_regs (c : Ictx) : (abandonRepeat c s).regs = s.regs := by
  simp [abandonRepeat]
@[simp] theorem abandonRepeat_frame (c : Ictx) : (abandonRepeat c s).frame = s.frame := by
  simp [abandonRepeat]
@[simp] theorem abandonRepeat_eng (c : Ictx) : (abandonRepeat c s).eng = s.eng := by
  simp [abandonRepeat]
@[simp] theorem abandonRepeat_ldr (c : Ictx) : (abandonRepeat c s).ldr = s.ldr := by
  simp [abandonRepeat]
@[simp] theorem abandonRepeat_mem (c : Ictx) : (abandonRepeat c s).mem = s.mem := by
  simp [abandonRepeat]
@[simp] theorem abandonRepeat_ecc (c : Ictx) : (abandonRepeat c s).ecc = s.ecc := by
  simp [abandonRepeat]
@[simp] theorem abandonRepeat_banks (c : Ictx) : (abandonRepeat c s).banks = s.banks := by
  simp [abandonRepeat]
@[simp] theorem abandonRepeat_dw (c : Ictx) : (abandonRepeat c s).dw = s.dw := by
  simp [abandonRepeat]
@[simp] theorem abandonRepeat_lanes (c : Ictx) : (abandonRepeat c s).lanes = s.lanes := by
  simp [abandonRepeat]
@[simp] theorem abandonRepeat_host (c : Ictx) : (abandonRepeat c s).host = s.host := by
  simp [abandonRepeat]
@[simp] theorem abandonRepeat_cairn (c : Ictx) : (abandonRepeat c s).cairn = s.cairn := by
  simp [abandonRepeat]
@[simp] theorem abandonRepeat_edge (c : Ictx) : (abandonRepeat c s).edge = s.edge := by
  simp [abandonRepeat]
@[simp] theorem abandonRepeat_hub (c : Ictx) : (abandonRepeat c s).hub = s.hub := by
  simp [abandonRepeat]
@[simp] theorem abandonRepeat_evt (c : Ictx) : (abandonRepeat c s).evt = s.evt := by
  simp [abandonRepeat]

/-! `raiseStack` changes `regs`, `out`, `evt`, `arr` alone. -/

@[simp] theorem raiseStack_pending (c : Ictx) : (raiseStack c s).pending = s.pending := by
  unfold raiseStack; dsimp only; split <;> simp
@[simp] theorem raiseStack_freeCount (c : Ictx) : (raiseStack c s).freeCount = s.freeCount := by
  unfold raiseStack; dsimp only; split <;> simp
@[simp] theorem raiseStack_mode (c : Ictx) : (raiseStack c s).mode = s.mode := by
  unfold raiseStack; dsimp only; split <;> simp
@[simp] theorem raiseStack_phase (c : Ictx) : (raiseStack c s).phase = s.phase := by
  unfold raiseStack; dsimp only; split <;> simp
@[simp] theorem raiseStack_fwVer (c : Ictx) : (raiseStack c s).fwVer = s.fwVer := by
  unfold raiseStack; dsimp only; split <;> simp
@[simp] theorem raiseStack_frame (c : Ictx) : (raiseStack c s).frame = s.frame := by
  unfold raiseStack; dsimp only; split <;> simp
@[simp] theorem raiseStack_eng (c : Ictx) : (raiseStack c s).eng = s.eng := by
  unfold raiseStack; dsimp only; split <;> simp
@[simp] theorem raiseStack_ldr (c : Ictx) : (raiseStack c s).ldr = s.ldr := by
  unfold raiseStack; dsimp only; split <;> simp
@[simp] theorem raiseStack_mem (c : Ictx) : (raiseStack c s).mem = s.mem := by
  unfold raiseStack; dsimp only; split <;> simp
@[simp] theorem raiseStack_ecc (c : Ictx) : (raiseStack c s).ecc = s.ecc := by
  unfold raiseStack; dsimp only; split <;> simp
@[simp] theorem raiseStack_banks (c : Ictx) : (raiseStack c s).banks = s.banks := by
  unfold raiseStack; dsimp only; split <;> simp
@[simp] theorem raiseStack_dw (c : Ictx) : (raiseStack c s).dw = s.dw := by
  unfold raiseStack; dsimp only; split <;> simp
@[simp] theorem raiseStack_lanes (c : Ictx) : (raiseStack c s).lanes = s.lanes := by
  unfold raiseStack; dsimp only; split <;> simp
@[simp] theorem raiseStack_host (c : Ictx) : (raiseStack c s).host = s.host := by
  unfold raiseStack; dsimp only; split <;> simp
@[simp] theorem raiseStack_cairn (c : Ictx) : (raiseStack c s).cairn = s.cairn := by
  unfold raiseStack; dsimp only; split <;> simp
@[simp] theorem raiseStack_edge (c : Ictx) : (raiseStack c s).edge = s.edge := by
  unfold raiseStack; dsimp only; split <;> simp
@[simp] theorem raiseStack_hub (c : Ictx) : (raiseStack c s).hub = s.hub := by
  unfold raiseStack; dsimp only; split <;> simp

/-! `raiseIllegal` changes `regs`, `out`, `evt`, `arr` alone. -/

@[simp] theorem raiseIllegal_pending (c : Ictx) (k : Nat) (pc : BitVec 14) : (raiseIllegal c k pc s).pending = s.pending := by
  unfold raiseIllegal; dsimp only; (repeat' split) <;> simp
@[simp] theorem raiseIllegal_freeCount (c : Ictx) (k : Nat) (pc : BitVec 14) : (raiseIllegal c k pc s).freeCount = s.freeCount := by
  unfold raiseIllegal; dsimp only; (repeat' split) <;> simp
@[simp] theorem raiseIllegal_mode (c : Ictx) (k : Nat) (pc : BitVec 14) : (raiseIllegal c k pc s).mode = s.mode := by
  unfold raiseIllegal; dsimp only; (repeat' split) <;> simp
@[simp] theorem raiseIllegal_phase (c : Ictx) (k : Nat) (pc : BitVec 14) : (raiseIllegal c k pc s).phase = s.phase := by
  unfold raiseIllegal; dsimp only; (repeat' split) <;> simp
@[simp] theorem raiseIllegal_fwVer (c : Ictx) (k : Nat) (pc : BitVec 14) : (raiseIllegal c k pc s).fwVer = s.fwVer := by
  unfold raiseIllegal; dsimp only; (repeat' split) <;> simp
@[simp] theorem raiseIllegal_frame (c : Ictx) (k : Nat) (pc : BitVec 14) : (raiseIllegal c k pc s).frame = s.frame := by
  unfold raiseIllegal; dsimp only; (repeat' split) <;> simp
@[simp] theorem raiseIllegal_eng (c : Ictx) (k : Nat) (pc : BitVec 14) : (raiseIllegal c k pc s).eng = s.eng := by
  unfold raiseIllegal; dsimp only; (repeat' split) <;> simp
@[simp] theorem raiseIllegal_ldr (c : Ictx) (k : Nat) (pc : BitVec 14) : (raiseIllegal c k pc s).ldr = s.ldr := by
  unfold raiseIllegal; dsimp only; (repeat' split) <;> simp
@[simp] theorem raiseIllegal_mem (c : Ictx) (k : Nat) (pc : BitVec 14) : (raiseIllegal c k pc s).mem = s.mem := by
  unfold raiseIllegal; dsimp only; (repeat' split) <;> simp
@[simp] theorem raiseIllegal_ecc (c : Ictx) (k : Nat) (pc : BitVec 14) : (raiseIllegal c k pc s).ecc = s.ecc := by
  unfold raiseIllegal; dsimp only; (repeat' split) <;> simp
@[simp] theorem raiseIllegal_banks (c : Ictx) (k : Nat) (pc : BitVec 14) : (raiseIllegal c k pc s).banks = s.banks := by
  unfold raiseIllegal; dsimp only; (repeat' split) <;> simp
@[simp] theorem raiseIllegal_dw (c : Ictx) (k : Nat) (pc : BitVec 14) : (raiseIllegal c k pc s).dw = s.dw := by
  unfold raiseIllegal; dsimp only; (repeat' split) <;> simp
@[simp] theorem raiseIllegal_lanes (c : Ictx) (k : Nat) (pc : BitVec 14) : (raiseIllegal c k pc s).lanes = s.lanes := by
  unfold raiseIllegal; dsimp only; (repeat' split) <;> simp
@[simp] theorem raiseIllegal_host (c : Ictx) (k : Nat) (pc : BitVec 14) : (raiseIllegal c k pc s).host = s.host := by
  unfold raiseIllegal; dsimp only; (repeat' split) <;> simp
@[simp] theorem raiseIllegal_cairn (c : Ictx) (k : Nat) (pc : BitVec 14) : (raiseIllegal c k pc s).cairn = s.cairn := by
  unfold raiseIllegal; dsimp only; (repeat' split) <;> simp
@[simp] theorem raiseIllegal_edge (c : Ictx) (k : Nat) (pc : BitVec 14) : (raiseIllegal c k pc s).edge = s.edge := by
  unfold raiseIllegal; dsimp only; (repeat' split) <;> simp
@[simp] theorem raiseIllegal_hub (c : Ictx) (k : Nat) (pc : BitVec 14) : (raiseIllegal c k pc s).hub = s.hub := by
  unfold raiseIllegal; dsimp only; (repeat' split) <;> simp

/-! `forbiddenRepeat` changes `regs`, `out`, `evt`, `arr` alone. -/

@[simp] theorem forbiddenRepeat_pending (c : Ictx) (r : Rep) (n : Nat) (g : Option (BitVec 2 × Fin 8)) :
    (forbiddenRepeat c r n g s).pending = s.pending := by
  simp [forbiddenRepeat]
@[simp] theorem forbiddenRepeat_freeCount (c : Ictx) (r : Rep) (n : Nat) (g : Option (BitVec 2 × Fin 8)) :
    (forbiddenRepeat c r n g s).freeCount = s.freeCount := by
  simp [forbiddenRepeat]
@[simp] theorem forbiddenRepeat_mode (c : Ictx) (r : Rep) (n : Nat) (g : Option (BitVec 2 × Fin 8)) :
    (forbiddenRepeat c r n g s).mode = s.mode := by
  simp [forbiddenRepeat]
@[simp] theorem forbiddenRepeat_phase (c : Ictx) (r : Rep) (n : Nat) (g : Option (BitVec 2 × Fin 8)) :
    (forbiddenRepeat c r n g s).phase = s.phase := by
  simp [forbiddenRepeat]
@[simp] theorem forbiddenRepeat_fwVer (c : Ictx) (r : Rep) (n : Nat) (g : Option (BitVec 2 × Fin 8)) :
    (forbiddenRepeat c r n g s).fwVer = s.fwVer := by
  simp [forbiddenRepeat]
@[simp] theorem forbiddenRepeat_frame (c : Ictx) (r : Rep) (n : Nat) (g : Option (BitVec 2 × Fin 8)) :
    (forbiddenRepeat c r n g s).frame = s.frame := by
  simp [forbiddenRepeat]
@[simp] theorem forbiddenRepeat_eng (c : Ictx) (r : Rep) (n : Nat) (g : Option (BitVec 2 × Fin 8)) :
    (forbiddenRepeat c r n g s).eng = s.eng := by
  simp [forbiddenRepeat]
@[simp] theorem forbiddenRepeat_ldr (c : Ictx) (r : Rep) (n : Nat) (g : Option (BitVec 2 × Fin 8)) :
    (forbiddenRepeat c r n g s).ldr = s.ldr := by
  simp [forbiddenRepeat]
@[simp] theorem forbiddenRepeat_mem (c : Ictx) (r : Rep) (n : Nat) (g : Option (BitVec 2 × Fin 8)) :
    (forbiddenRepeat c r n g s).mem = s.mem := by
  simp [forbiddenRepeat]
@[simp] theorem forbiddenRepeat_ecc (c : Ictx) (r : Rep) (n : Nat) (g : Option (BitVec 2 × Fin 8)) :
    (forbiddenRepeat c r n g s).ecc = s.ecc := by
  simp [forbiddenRepeat]
@[simp] theorem forbiddenRepeat_banks (c : Ictx) (r : Rep) (n : Nat) (g : Option (BitVec 2 × Fin 8)) :
    (forbiddenRepeat c r n g s).banks = s.banks := by
  simp [forbiddenRepeat]
@[simp] theorem forbiddenRepeat_dw (c : Ictx) (r : Rep) (n : Nat) (g : Option (BitVec 2 × Fin 8)) :
    (forbiddenRepeat c r n g s).dw = s.dw := by
  simp [forbiddenRepeat]
@[simp] theorem forbiddenRepeat_lanes (c : Ictx) (r : Rep) (n : Nat) (g : Option (BitVec 2 × Fin 8)) :
    (forbiddenRepeat c r n g s).lanes = s.lanes := by
  simp [forbiddenRepeat]
@[simp] theorem forbiddenRepeat_host (c : Ictx) (r : Rep) (n : Nat) (g : Option (BitVec 2 × Fin 8)) :
    (forbiddenRepeat c r n g s).host = s.host := by
  simp [forbiddenRepeat]
@[simp] theorem forbiddenRepeat_cairn (c : Ictx) (r : Rep) (n : Nat) (g : Option (BitVec 2 × Fin 8)) :
    (forbiddenRepeat c r n g s).cairn = s.cairn := by
  simp [forbiddenRepeat]
@[simp] theorem forbiddenRepeat_edge (c : Ictx) (r : Rep) (n : Nat) (g : Option (BitVec 2 × Fin 8)) :
    (forbiddenRepeat c r n g s).edge = s.edge := by
  simp [forbiddenRepeat]
@[simp] theorem forbiddenRepeat_hub (c : Ictx) (r : Rep) (n : Nat) (g : Option (BitVec 2 × Fin 8)) :
    (forbiddenRepeat c r n g s).hub = s.hub := by
  simp [forbiddenRepeat]

/-! `isolatedSent` changes `regs`, `out`, `evt`, `dw` alone. -/

@[simp] theorem isolatedSent_pending (n : Nat) : (isolatedSent n s).pending = s.pending := by
  unfold isolatedSent; dsimp only; split <;> simp
@[simp] theorem isolatedSent_freeCount (n : Nat) : (isolatedSent n s).freeCount = s.freeCount := by
  unfold isolatedSent; dsimp only; split <;> simp
@[simp] theorem isolatedSent_mode (n : Nat) : (isolatedSent n s).mode = s.mode := by
  unfold isolatedSent; dsimp only; split <;> simp
@[simp] theorem isolatedSent_phase (n : Nat) : (isolatedSent n s).phase = s.phase := by
  unfold isolatedSent; dsimp only; split <;> simp
@[simp] theorem isolatedSent_fwVer (n : Nat) : (isolatedSent n s).fwVer = s.fwVer := by
  unfold isolatedSent; dsimp only; split <;> simp
@[simp] theorem isolatedSent_frame (n : Nat) : (isolatedSent n s).frame = s.frame := by
  unfold isolatedSent; dsimp only; split <;> simp
@[simp] theorem isolatedSent_arr (n : Nat) : (isolatedSent n s).arr = s.arr := by
  unfold isolatedSent; dsimp only; split <;> simp
@[simp] theorem isolatedSent_eng (n : Nat) : (isolatedSent n s).eng = s.eng := by
  unfold isolatedSent; dsimp only; split <;> simp
@[simp] theorem isolatedSent_ldr (n : Nat) : (isolatedSent n s).ldr = s.ldr := by
  unfold isolatedSent; dsimp only; split <;> simp
@[simp] theorem isolatedSent_mem (n : Nat) : (isolatedSent n s).mem = s.mem := by
  unfold isolatedSent; dsimp only; split <;> simp
@[simp] theorem isolatedSent_ecc (n : Nat) : (isolatedSent n s).ecc = s.ecc := by
  unfold isolatedSent; dsimp only; split <;> simp
@[simp] theorem isolatedSent_banks (n : Nat) : (isolatedSent n s).banks = s.banks := by
  unfold isolatedSent; dsimp only; split <;> simp
@[simp] theorem isolatedSent_lanes (n : Nat) : (isolatedSent n s).lanes = s.lanes := by
  unfold isolatedSent; dsimp only; split <;> simp
@[simp] theorem isolatedSent_host (n : Nat) : (isolatedSent n s).host = s.host := by
  unfold isolatedSent; dsimp only; split <;> simp
@[simp] theorem isolatedSent_cairn (n : Nat) : (isolatedSent n s).cairn = s.cairn := by
  unfold isolatedSent; dsimp only; split <;> simp
@[simp] theorem isolatedSent_edge (n : Nat) : (isolatedSent n s).edge = s.edge := by
  unfold isolatedSent; dsimp only; split <;> simp
@[simp] theorem isolatedSent_hub (n : Nat) : (isolatedSent n s).hub = s.hub := by
  unfold isolatedSent; dsimp only; split <;> simp

/-! `eccRecord` changes `regs`, `out`, `evt`, `cairn` alone. -/

@[simp] theorem eccRecord_pending (b w : Nat) (c : Bool) : (eccRecord b w c s).pending = s.pending := by
  unfold eccRecord; dsimp only; (repeat' split) <;> simp
@[simp] theorem eccRecord_freeCount (b w : Nat) (c : Bool) : (eccRecord b w c s).freeCount = s.freeCount := by
  unfold eccRecord; dsimp only; (repeat' split) <;> simp
@[simp] theorem eccRecord_mode (b w : Nat) (c : Bool) : (eccRecord b w c s).mode = s.mode := by
  unfold eccRecord; dsimp only; (repeat' split) <;> simp
@[simp] theorem eccRecord_phase (b w : Nat) (c : Bool) : (eccRecord b w c s).phase = s.phase := by
  unfold eccRecord; dsimp only; (repeat' split) <;> simp
@[simp] theorem eccRecord_fwVer (b w : Nat) (c : Bool) : (eccRecord b w c s).fwVer = s.fwVer := by
  unfold eccRecord; dsimp only; (repeat' split) <;> simp
@[simp] theorem eccRecord_frame (b w : Nat) (c : Bool) : (eccRecord b w c s).frame = s.frame := by
  unfold eccRecord; dsimp only; (repeat' split) <;> simp
@[simp] theorem eccRecord_arr (b w : Nat) (c : Bool) : (eccRecord b w c s).arr = s.arr := by
  unfold eccRecord; dsimp only; (repeat' split) <;> simp
@[simp] theorem eccRecord_eng (b w : Nat) (c : Bool) : (eccRecord b w c s).eng = s.eng := by
  unfold eccRecord; dsimp only; (repeat' split) <;> simp
@[simp] theorem eccRecord_ldr (b w : Nat) (c : Bool) : (eccRecord b w c s).ldr = s.ldr := by
  unfold eccRecord; dsimp only; (repeat' split) <;> simp
@[simp] theorem eccRecord_mem (b w : Nat) (c : Bool) : (eccRecord b w c s).mem = s.mem := by
  unfold eccRecord; dsimp only; (repeat' split) <;> simp
@[simp] theorem eccRecord_ecc (b w : Nat) (c : Bool) : (eccRecord b w c s).ecc = s.ecc := by
  unfold eccRecord; dsimp only; (repeat' split) <;> simp
@[simp] theorem eccRecord_banks (b w : Nat) (c : Bool) : (eccRecord b w c s).banks = s.banks := by
  unfold eccRecord; dsimp only; (repeat' split) <;> simp
@[simp] theorem eccRecord_dw (b w : Nat) (c : Bool) : (eccRecord b w c s).dw = s.dw := by
  unfold eccRecord; dsimp only; (repeat' split) <;> simp
@[simp] theorem eccRecord_lanes (b w : Nat) (c : Bool) : (eccRecord b w c s).lanes = s.lanes := by
  unfold eccRecord; dsimp only; (repeat' split) <;> simp
@[simp] theorem eccRecord_host (b w : Nat) (c : Bool) : (eccRecord b w c s).host = s.host := by
  unfold eccRecord; dsimp only; (repeat' split) <;> simp
@[simp] theorem eccRecord_edge (b w : Nat) (c : Bool) : (eccRecord b w c s).edge = s.edge := by
  unfold eccRecord; dsimp only; (repeat' split) <;> simp
@[simp] theorem eccRecord_hub (b w : Nat) (c : Bool) : (eccRecord b w c s).hub = s.hub := by
  unfold eccRecord; dsimp only; (repeat' split) <;> simp

/-! `eccCorrect` changes `regs`, `banks` alone. -/

@[simp] theorem eccCorrect_pending (b w : Nat) : (eccCorrect b w s).pending = s.pending := by
  simp [eccCorrect]
@[simp] theorem eccCorrect_out (b w : Nat) : (eccCorrect b w s).out = s.out := by
  simp [eccCorrect]
@[simp] theorem eccCorrect_freeCount (b w : Nat) : (eccCorrect b w s).freeCount = s.freeCount := by
  simp [eccCorrect]
@[simp] theorem eccCorrect_mode (b w : Nat) : (eccCorrect b w s).mode = s.mode := by
  simp [eccCorrect]
@[simp] theorem eccCorrect_phase (b w : Nat) : (eccCorrect b w s).phase = s.phase := by
  simp [eccCorrect]
@[simp] theorem eccCorrect_fwVer (b w : Nat) : (eccCorrect b w s).fwVer = s.fwVer := by
  simp [eccCorrect]
@[simp] theorem eccCorrect_frame (b w : Nat) : (eccCorrect b w s).frame = s.frame := by
  simp [eccCorrect]
@[simp] theorem eccCorrect_arr (b w : Nat) : (eccCorrect b w s).arr = s.arr := by
  simp [eccCorrect]
@[simp] theorem eccCorrect_eng (b w : Nat) : (eccCorrect b w s).eng = s.eng := by
  simp [eccCorrect]
@[simp] theorem eccCorrect_ldr (b w : Nat) : (eccCorrect b w s).ldr = s.ldr := by
  simp [eccCorrect]
@[simp] theorem eccCorrect_mem (b w : Nat) : (eccCorrect b w s).mem = s.mem := by
  simp [eccCorrect]
@[simp] theorem eccCorrect_ecc (b w : Nat) : (eccCorrect b w s).ecc = s.ecc := by
  simp [eccCorrect]
@[simp] theorem eccCorrect_dw (b w : Nat) : (eccCorrect b w s).dw = s.dw := by
  simp [eccCorrect]
@[simp] theorem eccCorrect_lanes (b w : Nat) : (eccCorrect b w s).lanes = s.lanes := by
  simp [eccCorrect]
@[simp] theorem eccCorrect_evt (b w : Nat) : (eccCorrect b w s).evt = s.evt := by
  simp [eccCorrect]
@[simp] theorem eccCorrect_host (b w : Nat) : (eccCorrect b w s).host = s.host := by
  simp [eccCorrect]
@[simp] theorem eccCorrect_cairn (b w : Nat) : (eccCorrect b w s).cairn = s.cairn := by
  simp [eccCorrect]
@[simp] theorem eccCorrect_edge (b w : Nat) : (eccCorrect b w s).edge = s.edge := by
  simp [eccCorrect]
@[simp] theorem eccCorrect_hub (b w : Nat) : (eccCorrect b w s).hub = s.hub := by
  simp [eccCorrect]

/-! `setEcc` changes `ecc` alone. -/

@[simp] theorem State.setEcc_pending (b w : Nat) (e : Ecc) : (s.setEcc b w e).pending = s.pending := by
  rfl
@[simp] theorem State.setEcc_out (b w : Nat) (e : Ecc) : (s.setEcc b w e).out = s.out := by
  rfl
@[simp] theorem State.setEcc_freeCount (b w : Nat) (e : Ecc) : (s.setEcc b w e).freeCount = s.freeCount := by
  rfl
@[simp] theorem State.setEcc_mode (b w : Nat) (e : Ecc) : (s.setEcc b w e).mode = s.mode := by
  rfl
@[simp] theorem State.setEcc_phase (b w : Nat) (e : Ecc) : (s.setEcc b w e).phase = s.phase := by
  rfl
@[simp] theorem State.setEcc_fwVer (b w : Nat) (e : Ecc) : (s.setEcc b w e).fwVer = s.fwVer := by
  rfl
@[simp] theorem State.setEcc_regs (b w : Nat) (e : Ecc) : (s.setEcc b w e).regs = s.regs := by
  rfl
@[simp] theorem State.setEcc_frame (b w : Nat) (e : Ecc) : (s.setEcc b w e).frame = s.frame := by
  rfl
@[simp] theorem State.setEcc_arr (b w : Nat) (e : Ecc) : (s.setEcc b w e).arr = s.arr := by
  rfl
@[simp] theorem State.setEcc_eng (b w : Nat) (e : Ecc) : (s.setEcc b w e).eng = s.eng := by
  rfl
@[simp] theorem State.setEcc_ldr (b w : Nat) (e : Ecc) : (s.setEcc b w e).ldr = s.ldr := by
  rfl
@[simp] theorem State.setEcc_mem (b w : Nat) (e : Ecc) : (s.setEcc b w e).mem = s.mem := by
  rfl
@[simp] theorem State.setEcc_banks (b w : Nat) (e : Ecc) : (s.setEcc b w e).banks = s.banks := by
  rfl
@[simp] theorem State.setEcc_dw (b w : Nat) (e : Ecc) : (s.setEcc b w e).dw = s.dw := by
  rfl
@[simp] theorem State.setEcc_lanes (b w : Nat) (e : Ecc) : (s.setEcc b w e).lanes = s.lanes := by
  rfl
@[simp] theorem State.setEcc_evt (b w : Nat) (e : Ecc) : (s.setEcc b w e).evt = s.evt := by
  rfl
@[simp] theorem State.setEcc_host (b w : Nat) (e : Ecc) : (s.setEcc b w e).host = s.host := by
  rfl
@[simp] theorem State.setEcc_cairn (b w : Nat) (e : Ecc) : (s.setEcc b w e).cairn = s.cairn := by
  rfl
@[simp] theorem State.setEcc_edge (b w : Nat) (e : Ecc) : (s.setEcc b w e).edge = s.edge := by
  rfl
@[simp] theorem State.setEcc_hub (b w : Nat) (e : Ecc) : (s.setEcc b w e).hub = s.hub := by
  rfl

/-! `bankRead` changes `regs`, `out`, `evt`, `cairn`, `banks` alone. -/

@[simp] theorem bankRead_pending (b w : Nat) (c : Bool) : ((bankRead b w c s).2).pending = s.pending := by
  unfold bankRead; split <;> simp
@[simp] theorem bankRead_freeCount (b w : Nat) (c : Bool) : ((bankRead b w c s).2).freeCount = s.freeCount := by
  unfold bankRead; split <;> simp
@[simp] theorem bankRead_mode (b w : Nat) (c : Bool) : ((bankRead b w c s).2).mode = s.mode := by
  unfold bankRead; split <;> simp
@[simp] theorem bankRead_phase (b w : Nat) (c : Bool) : ((bankRead b w c s).2).phase = s.phase := by
  unfold bankRead; split <;> simp
@[simp] theorem bankRead_fwVer (b w : Nat) (c : Bool) : ((bankRead b w c s).2).fwVer = s.fwVer := by
  unfold bankRead; split <;> simp
@[simp] theorem bankRead_frame (b w : Nat) (c : Bool) : ((bankRead b w c s).2).frame = s.frame := by
  unfold bankRead; split <;> simp
@[simp] theorem bankRead_arr (b w : Nat) (c : Bool) : ((bankRead b w c s).2).arr = s.arr := by
  unfold bankRead; split <;> simp
@[simp] theorem bankRead_eng (b w : Nat) (c : Bool) : ((bankRead b w c s).2).eng = s.eng := by
  unfold bankRead; split <;> simp
@[simp] theorem bankRead_ldr (b w : Nat) (c : Bool) : ((bankRead b w c s).2).ldr = s.ldr := by
  unfold bankRead; split <;> simp
@[simp] theorem bankRead_mem (b w : Nat) (c : Bool) : ((bankRead b w c s).2).mem = s.mem := by
  unfold bankRead; split <;> simp
@[simp] theorem bankRead_ecc (b w : Nat) (c : Bool) : ((bankRead b w c s).2).ecc = s.ecc := by
  unfold bankRead; split <;> simp
@[simp] theorem bankRead_dw (b w : Nat) (c : Bool) : ((bankRead b w c s).2).dw = s.dw := by
  unfold bankRead; split <;> simp
@[simp] theorem bankRead_lanes (b w : Nat) (c : Bool) : ((bankRead b w c s).2).lanes = s.lanes := by
  unfold bankRead; split <;> simp
@[simp] theorem bankRead_host (b w : Nat) (c : Bool) : ((bankRead b w c s).2).host = s.host := by
  unfold bankRead; split <;> simp
@[simp] theorem bankRead_edge (b w : Nat) (c : Bool) : ((bankRead b w c s).2).edge = s.edge := by
  unfold bankRead; split <;> simp
@[simp] theorem bankRead_hub (b w : Nat) (c : Bool) : ((bankRead b w c s).2).hub = s.hub := by
  unfold bankRead; split <;> simp

/-! `clockOn` changes `frame` alone. -/

@[simp] theorem clockOn_pending (d : Nat) : (clockOn d s).pending = s.pending := by
  rfl
@[simp] theorem clockOn_out (d : Nat) : (clockOn d s).out = s.out := by
  rfl
@[simp] theorem clockOn_freeCount (d : Nat) : (clockOn d s).freeCount = s.freeCount := by
  rfl
@[simp] theorem clockOn_mode (d : Nat) : (clockOn d s).mode = s.mode := by
  rfl
@[simp] theorem clockOn_phase (d : Nat) : (clockOn d s).phase = s.phase := by
  rfl
@[simp] theorem clockOn_fwVer (d : Nat) : (clockOn d s).fwVer = s.fwVer := by
  rfl
@[simp] theorem clockOn_regs (d : Nat) : (clockOn d s).regs = s.regs := by
  rfl
@[simp] theorem clockOn_arr (d : Nat) : (clockOn d s).arr = s.arr := by
  rfl
@[simp] theorem clockOn_eng (d : Nat) : (clockOn d s).eng = s.eng := by
  rfl
@[simp] theorem clockOn_ldr (d : Nat) : (clockOn d s).ldr = s.ldr := by
  rfl
@[simp] theorem clockOn_mem (d : Nat) : (clockOn d s).mem = s.mem := by
  rfl
@[simp] theorem clockOn_ecc (d : Nat) : (clockOn d s).ecc = s.ecc := by
  rfl
@[simp] theorem clockOn_banks (d : Nat) : (clockOn d s).banks = s.banks := by
  rfl
@[simp] theorem clockOn_dw (d : Nat) : (clockOn d s).dw = s.dw := by
  rfl
@[simp] theorem clockOn_lanes (d : Nat) : (clockOn d s).lanes = s.lanes := by
  rfl
@[simp] theorem clockOn_evt (d : Nat) : (clockOn d s).evt = s.evt := by
  rfl
@[simp] theorem clockOn_host (d : Nat) : (clockOn d s).host = s.host := by
  rfl
@[simp] theorem clockOn_cairn (d : Nat) : (clockOn d s).cairn = s.cairn := by
  rfl
@[simp] theorem clockOn_edge (d : Nat) : (clockOn d s).edge = s.edge := by
  rfl
@[simp] theorem clockOn_hub (d : Nat) : (clockOn d s).hub = s.hub := by
  rfl

/-! `edgeCycle` changes `edge` alone. -/

@[simp] theorem edgeCycle_pending : (edgeCycle s).pending = s.pending := by
  rfl
@[simp] theorem edgeCycle_out : (edgeCycle s).out = s.out := by
  rfl
@[simp] theorem edgeCycle_freeCount : (edgeCycle s).freeCount = s.freeCount := by
  rfl
@[simp] theorem edgeCycle_mode : (edgeCycle s).mode = s.mode := by
  rfl
@[simp] theorem edgeCycle_phase : (edgeCycle s).phase = s.phase := by
  rfl
@[simp] theorem edgeCycle_fwVer : (edgeCycle s).fwVer = s.fwVer := by
  rfl
@[simp] theorem edgeCycle_regs : (edgeCycle s).regs = s.regs := by
  rfl
@[simp] theorem edgeCycle_frame : (edgeCycle s).frame = s.frame := by
  rfl
@[simp] theorem edgeCycle_arr : (edgeCycle s).arr = s.arr := by
  rfl
@[simp] theorem edgeCycle_eng : (edgeCycle s).eng = s.eng := by
  rfl
@[simp] theorem edgeCycle_ldr : (edgeCycle s).ldr = s.ldr := by
  rfl
@[simp] theorem edgeCycle_mem : (edgeCycle s).mem = s.mem := by
  rfl
@[simp] theorem edgeCycle_ecc : (edgeCycle s).ecc = s.ecc := by
  rfl
@[simp] theorem edgeCycle_banks : (edgeCycle s).banks = s.banks := by
  rfl
@[simp] theorem edgeCycle_dw : (edgeCycle s).dw = s.dw := by
  rfl
@[simp] theorem edgeCycle_lanes : (edgeCycle s).lanes = s.lanes := by
  rfl
@[simp] theorem edgeCycle_evt : (edgeCycle s).evt = s.evt := by
  rfl
@[simp] theorem edgeCycle_host : (edgeCycle s).host = s.host := by
  rfl
@[simp] theorem edgeCycle_cairn : (edgeCycle s).cairn = s.cairn := by
  rfl
@[simp] theorem edgeCycle_hub : (edgeCycle s).hub = s.hub := by
  rfl

/-! `ringCycles` changes `frame`, `edge` alone. -/

@[simp] theorem ringCycles_pending (n : Nat) : (ringCycles n s).pending = s.pending := by
  induction n generalizing s with | zero => rfl | succ n ih => simp [ringCycles, ih]
@[simp] theorem ringCycles_out (n : Nat) : (ringCycles n s).out = s.out := by
  induction n generalizing s with | zero => rfl | succ n ih => simp [ringCycles, ih]
@[simp] theorem ringCycles_freeCount (n : Nat) : (ringCycles n s).freeCount = s.freeCount := by
  induction n generalizing s with | zero => rfl | succ n ih => simp [ringCycles, ih]
@[simp] theorem ringCycles_mode (n : Nat) : (ringCycles n s).mode = s.mode := by
  induction n generalizing s with | zero => rfl | succ n ih => simp [ringCycles, ih]
@[simp] theorem ringCycles_phase (n : Nat) : (ringCycles n s).phase = s.phase := by
  induction n generalizing s with | zero => rfl | succ n ih => simp [ringCycles, ih]
@[simp] theorem ringCycles_fwVer (n : Nat) : (ringCycles n s).fwVer = s.fwVer := by
  induction n generalizing s with | zero => rfl | succ n ih => simp [ringCycles, ih]
@[simp] theorem ringCycles_regs (n : Nat) : (ringCycles n s).regs = s.regs := by
  induction n generalizing s with | zero => rfl | succ n ih => simp [ringCycles, ih]
@[simp] theorem ringCycles_arr (n : Nat) : (ringCycles n s).arr = s.arr := by
  induction n generalizing s with | zero => rfl | succ n ih => simp [ringCycles, ih]
@[simp] theorem ringCycles_eng (n : Nat) : (ringCycles n s).eng = s.eng := by
  induction n generalizing s with | zero => rfl | succ n ih => simp [ringCycles, ih]
@[simp] theorem ringCycles_ldr (n : Nat) : (ringCycles n s).ldr = s.ldr := by
  induction n generalizing s with | zero => rfl | succ n ih => simp [ringCycles, ih]
@[simp] theorem ringCycles_mem (n : Nat) : (ringCycles n s).mem = s.mem := by
  induction n generalizing s with | zero => rfl | succ n ih => simp [ringCycles, ih]
@[simp] theorem ringCycles_ecc (n : Nat) : (ringCycles n s).ecc = s.ecc := by
  induction n generalizing s with | zero => rfl | succ n ih => simp [ringCycles, ih]
@[simp] theorem ringCycles_banks (n : Nat) : (ringCycles n s).banks = s.banks := by
  induction n generalizing s with | zero => rfl | succ n ih => simp [ringCycles, ih]
@[simp] theorem ringCycles_dw (n : Nat) : (ringCycles n s).dw = s.dw := by
  induction n generalizing s with | zero => rfl | succ n ih => simp [ringCycles, ih]
@[simp] theorem ringCycles_lanes (n : Nat) : (ringCycles n s).lanes = s.lanes := by
  induction n generalizing s with | zero => rfl | succ n ih => simp [ringCycles, ih]
@[simp] theorem ringCycles_evt (n : Nat) : (ringCycles n s).evt = s.evt := by
  induction n generalizing s with | zero => rfl | succ n ih => simp [ringCycles, ih]
@[simp] theorem ringCycles_host (n : Nat) : (ringCycles n s).host = s.host := by
  induction n generalizing s with | zero => rfl | succ n ih => simp [ringCycles, ih]
@[simp] theorem ringCycles_cairn (n : Nat) : (ringCycles n s).cairn = s.cairn := by
  induction n generalizing s with | zero => rfl | succ n ih => simp [ringCycles, ih]
@[simp] theorem ringCycles_hub (n : Nat) : (ringCycles n s).hub = s.hub := by
  induction n generalizing s with | zero => rfl | succ n ih => simp [ringCycles, ih]

/-! `takeSamples` changes `edge` alone. -/

@[simp] theorem takeSamples_pending (d : Nat) : (takeSamples d s).pending = s.pending := by
  unfold takeSamples; dsimp only; split <;> rfl
@[simp] theorem takeSamples_out (d : Nat) : (takeSamples d s).out = s.out := by
  unfold takeSamples; dsimp only; split <;> rfl
@[simp] theorem takeSamples_freeCount (d : Nat) : (takeSamples d s).freeCount = s.freeCount := by
  unfold takeSamples; dsimp only; split <;> rfl
@[simp] theorem takeSamples_mode (d : Nat) : (takeSamples d s).mode = s.mode := by
  unfold takeSamples; dsimp only; split <;> rfl
@[simp] theorem takeSamples_phase (d : Nat) : (takeSamples d s).phase = s.phase := by
  unfold takeSamples; dsimp only; split <;> rfl
@[simp] theorem takeSamples_fwVer (d : Nat) : (takeSamples d s).fwVer = s.fwVer := by
  unfold takeSamples; dsimp only; split <;> rfl
@[simp] theorem takeSamples_regs (d : Nat) : (takeSamples d s).regs = s.regs := by
  unfold takeSamples; dsimp only; split <;> rfl
@[simp] theorem takeSamples_frame (d : Nat) : (takeSamples d s).frame = s.frame := by
  unfold takeSamples; dsimp only; split <;> rfl
@[simp] theorem takeSamples_arr (d : Nat) : (takeSamples d s).arr = s.arr := by
  unfold takeSamples; dsimp only; split <;> rfl
@[simp] theorem takeSamples_eng (d : Nat) : (takeSamples d s).eng = s.eng := by
  unfold takeSamples; dsimp only; split <;> rfl
@[simp] theorem takeSamples_ldr (d : Nat) : (takeSamples d s).ldr = s.ldr := by
  unfold takeSamples; dsimp only; split <;> rfl
@[simp] theorem takeSamples_mem (d : Nat) : (takeSamples d s).mem = s.mem := by
  unfold takeSamples; dsimp only; split <;> rfl
@[simp] theorem takeSamples_ecc (d : Nat) : (takeSamples d s).ecc = s.ecc := by
  unfold takeSamples; dsimp only; split <;> rfl
@[simp] theorem takeSamples_banks (d : Nat) : (takeSamples d s).banks = s.banks := by
  unfold takeSamples; dsimp only; split <;> rfl
@[simp] theorem takeSamples_dw (d : Nat) : (takeSamples d s).dw = s.dw := by
  unfold takeSamples; dsimp only; split <;> rfl
@[simp] theorem takeSamples_lanes (d : Nat) : (takeSamples d s).lanes = s.lanes := by
  unfold takeSamples; dsimp only; split <;> rfl
@[simp] theorem takeSamples_evt (d : Nat) : (takeSamples d s).evt = s.evt := by
  unfold takeSamples; dsimp only; split <;> rfl
@[simp] theorem takeSamples_host (d : Nat) : (takeSamples d s).host = s.host := by
  unfold takeSamples; dsimp only; split <;> rfl
@[simp] theorem takeSamples_cairn (d : Nat) : (takeSamples d s).cairn = s.cairn := by
  unfold takeSamples; dsimp only; split <;> rfl
@[simp] theorem takeSamples_hub (d : Nat) : (takeSamples d s).hub = s.hub := by
  unfold takeSamples; dsimp only; split <;> rfl

/-! `passTime` changes `frame`, `edge` alone. -/

@[simp] theorem passTime_pending (d : Nat) : (passTime d s).pending = s.pending := by
  unfold passTime; dsimp only; split <;> simp
@[simp] theorem passTime_out (d : Nat) : (passTime d s).out = s.out := by
  unfold passTime; dsimp only; split <;> simp
@[simp] theorem passTime_freeCount (d : Nat) : (passTime d s).freeCount = s.freeCount := by
  unfold passTime; dsimp only; split <;> simp
@[simp] theorem passTime_mode (d : Nat) : (passTime d s).mode = s.mode := by
  unfold passTime; dsimp only; split <;> simp
@[simp] theorem passTime_phase (d : Nat) : (passTime d s).phase = s.phase := by
  unfold passTime; dsimp only; split <;> simp
@[simp] theorem passTime_fwVer (d : Nat) : (passTime d s).fwVer = s.fwVer := by
  unfold passTime; dsimp only; split <;> simp
@[simp] theorem passTime_regs (d : Nat) : (passTime d s).regs = s.regs := by
  unfold passTime; dsimp only; split <;> simp
@[simp] theorem passTime_arr (d : Nat) : (passTime d s).arr = s.arr := by
  unfold passTime; dsimp only; split <;> simp
@[simp] theorem passTime_eng (d : Nat) : (passTime d s).eng = s.eng := by
  unfold passTime; dsimp only; split <;> simp
@[simp] theorem passTime_ldr (d : Nat) : (passTime d s).ldr = s.ldr := by
  unfold passTime; dsimp only; split <;> simp
@[simp] theorem passTime_mem (d : Nat) : (passTime d s).mem = s.mem := by
  unfold passTime; dsimp only; split <;> simp
@[simp] theorem passTime_ecc (d : Nat) : (passTime d s).ecc = s.ecc := by
  unfold passTime; dsimp only; split <;> simp
@[simp] theorem passTime_banks (d : Nat) : (passTime d s).banks = s.banks := by
  unfold passTime; dsimp only; split <;> simp
@[simp] theorem passTime_dw (d : Nat) : (passTime d s).dw = s.dw := by
  unfold passTime; dsimp only; split <;> simp
@[simp] theorem passTime_lanes (d : Nat) : (passTime d s).lanes = s.lanes := by
  unfold passTime; dsimp only; split <;> simp
@[simp] theorem passTime_evt (d : Nat) : (passTime d s).evt = s.evt := by
  unfold passTime; dsimp only; split <;> simp
@[simp] theorem passTime_host (d : Nat) : (passTime d s).host = s.host := by
  unfold passTime; dsimp only; split <;> simp
@[simp] theorem passTime_cairn (d : Nat) : (passTime d s).cairn = s.cairn := by
  unfold passTime; dsimp only; split <;> simp
@[simp] theorem passTime_hub (d : Nat) : (passTime d s).hub = s.hub := by
  unfold passTime; dsimp only; split <;> simp

/-! `advanceTo` changes `frame`, `edge` alone. -/

@[simp] theorem advanceTo_pending (c : Nat) : (advanceTo c s).pending = s.pending := by
  unfold advanceTo; split <;> simp
@[simp] theorem advanceTo_out (c : Nat) : (advanceTo c s).out = s.out := by
  unfold advanceTo; split <;> simp
@[simp] theorem advanceTo_freeCount (c : Nat) : (advanceTo c s).freeCount = s.freeCount := by
  unfold advanceTo; split <;> simp
@[simp] theorem advanceTo_mode (c : Nat) : (advanceTo c s).mode = s.mode := by
  unfold advanceTo; split <;> simp
@[simp] theorem advanceTo_phase (c : Nat) : (advanceTo c s).phase = s.phase := by
  unfold advanceTo; split <;> simp
@[simp] theorem advanceTo_fwVer (c : Nat) : (advanceTo c s).fwVer = s.fwVer := by
  unfold advanceTo; split <;> simp
@[simp] theorem advanceTo_regs (c : Nat) : (advanceTo c s).regs = s.regs := by
  unfold advanceTo; split <;> simp
@[simp] theorem advanceTo_arr (c : Nat) : (advanceTo c s).arr = s.arr := by
  unfold advanceTo; split <;> simp
@[simp] theorem advanceTo_eng (c : Nat) : (advanceTo c s).eng = s.eng := by
  unfold advanceTo; split <;> simp
@[simp] theorem advanceTo_ldr (c : Nat) : (advanceTo c s).ldr = s.ldr := by
  unfold advanceTo; split <;> simp
@[simp] theorem advanceTo_mem (c : Nat) : (advanceTo c s).mem = s.mem := by
  unfold advanceTo; split <;> simp
@[simp] theorem advanceTo_ecc (c : Nat) : (advanceTo c s).ecc = s.ecc := by
  unfold advanceTo; split <;> simp
@[simp] theorem advanceTo_banks (c : Nat) : (advanceTo c s).banks = s.banks := by
  unfold advanceTo; split <;> simp
@[simp] theorem advanceTo_dw (c : Nat) : (advanceTo c s).dw = s.dw := by
  unfold advanceTo; split <;> simp
@[simp] theorem advanceTo_lanes (c : Nat) : (advanceTo c s).lanes = s.lanes := by
  unfold advanceTo; split <;> simp
@[simp] theorem advanceTo_evt (c : Nat) : (advanceTo c s).evt = s.evt := by
  unfold advanceTo; split <;> simp
@[simp] theorem advanceTo_host (c : Nat) : (advanceTo c s).host = s.host := by
  unfold advanceTo; split <;> simp
@[simp] theorem advanceTo_cairn (c : Nat) : (advanceTo c s).cairn = s.cairn := by
  unfold advanceTo; split <;> simp
@[simp] theorem advanceTo_hub (c : Nat) : (advanceTo c s).hub = s.hub := by
  unfold advanceTo; split <;> simp

/-! `advanceTime` changes `frame`, `edge` alone. -/

@[simp] theorem advanceTime_pending (t : Nat) : (advanceTime t s).pending = s.pending := by
  unfold advanceTime; split <;> simp
@[simp] theorem advanceTime_out (t : Nat) : (advanceTime t s).out = s.out := by
  unfold advanceTime; split <;> simp
@[simp] theorem advanceTime_freeCount (t : Nat) : (advanceTime t s).freeCount = s.freeCount := by
  unfold advanceTime; split <;> simp
@[simp] theorem advanceTime_mode (t : Nat) : (advanceTime t s).mode = s.mode := by
  unfold advanceTime; split <;> simp
@[simp] theorem advanceTime_phase (t : Nat) : (advanceTime t s).phase = s.phase := by
  unfold advanceTime; split <;> simp
@[simp] theorem advanceTime_fwVer (t : Nat) : (advanceTime t s).fwVer = s.fwVer := by
  unfold advanceTime; split <;> simp
@[simp] theorem advanceTime_regs (t : Nat) : (advanceTime t s).regs = s.regs := by
  unfold advanceTime; split <;> simp
@[simp] theorem advanceTime_arr (t : Nat) : (advanceTime t s).arr = s.arr := by
  unfold advanceTime; split <;> simp
@[simp] theorem advanceTime_eng (t : Nat) : (advanceTime t s).eng = s.eng := by
  unfold advanceTime; split <;> simp
@[simp] theorem advanceTime_ldr (t : Nat) : (advanceTime t s).ldr = s.ldr := by
  unfold advanceTime; split <;> simp
@[simp] theorem advanceTime_mem (t : Nat) : (advanceTime t s).mem = s.mem := by
  unfold advanceTime; split <;> simp
@[simp] theorem advanceTime_ecc (t : Nat) : (advanceTime t s).ecc = s.ecc := by
  unfold advanceTime; split <;> simp
@[simp] theorem advanceTime_banks (t : Nat) : (advanceTime t s).banks = s.banks := by
  unfold advanceTime; split <;> simp
@[simp] theorem advanceTime_dw (t : Nat) : (advanceTime t s).dw = s.dw := by
  unfold advanceTime; split <;> simp
@[simp] theorem advanceTime_lanes (t : Nat) : (advanceTime t s).lanes = s.lanes := by
  unfold advanceTime; split <;> simp
@[simp] theorem advanceTime_evt (t : Nat) : (advanceTime t s).evt = s.evt := by
  unfold advanceTime; split <;> simp
@[simp] theorem advanceTime_host (t : Nat) : (advanceTime t s).host = s.host := by
  unfold advanceTime; split <;> simp
@[simp] theorem advanceTime_cairn (t : Nat) : (advanceTime t s).cairn = s.cairn := by
  unfold advanceTime; split <;> simp
@[simp] theorem advanceTime_hub (t : Nat) : (advanceTime t s).hub = s.hub := by
  unfold advanceTime; split <;> simp

/-! `strobe` changes `edge` alone. -/

@[simp] theorem strobe_pending (c : Nat) : (strobe c s).pending = s.pending := by
  rfl
@[simp] theorem strobe_out (c : Nat) : (strobe c s).out = s.out := by
  rfl
@[simp] theorem strobe_freeCount (c : Nat) : (strobe c s).freeCount = s.freeCount := by
  rfl
@[simp] theorem strobe_mode (c : Nat) : (strobe c s).mode = s.mode := by
  rfl
@[simp] theorem strobe_phase (c : Nat) : (strobe c s).phase = s.phase := by
  rfl
@[simp] theorem strobe_fwVer (c : Nat) : (strobe c s).fwVer = s.fwVer := by
  rfl
@[simp] theorem strobe_regs (c : Nat) : (strobe c s).regs = s.regs := by
  rfl
@[simp] theorem strobe_frame (c : Nat) : (strobe c s).frame = s.frame := by
  rfl
@[simp] theorem strobe_arr (c : Nat) : (strobe c s).arr = s.arr := by
  rfl
@[simp] theorem strobe_eng (c : Nat) : (strobe c s).eng = s.eng := by
  rfl
@[simp] theorem strobe_ldr (c : Nat) : (strobe c s).ldr = s.ldr := by
  rfl
@[simp] theorem strobe_mem (c : Nat) : (strobe c s).mem = s.mem := by
  rfl
@[simp] theorem strobe_ecc (c : Nat) : (strobe c s).ecc = s.ecc := by
  rfl
@[simp] theorem strobe_banks (c : Nat) : (strobe c s).banks = s.banks := by
  rfl
@[simp] theorem strobe_dw (c : Nat) : (strobe c s).dw = s.dw := by
  rfl
@[simp] theorem strobe_lanes (c : Nat) : (strobe c s).lanes = s.lanes := by
  rfl
@[simp] theorem strobe_evt (c : Nat) : (strobe c s).evt = s.evt := by
  rfl
@[simp] theorem strobe_host (c : Nat) : (strobe c s).host = s.host := by
  rfl
@[simp] theorem strobe_cairn (c : Nat) : (strobe c s).cairn = s.cairn := by
  rfl
@[simp] theorem strobe_hub (c : Nat) : (strobe c s).hub = s.hub := by
  rfl

end Sys2Proof.Machine
end

