-- ==== Sys2Proof/Laws/Array.lean ====
section
/-! SUPPORT. The array: what folds, sequencers, pens and planes read as after an update, and what an instruction that issues does. -/

namespace Sys2Proof.Machine

variable (s : State)

/-! ### Folds and sequencers -/

theorem fold_of_arr {s t : State} (h : t.arr = s.arr) (q : Nat) : t.fold q = s.fold q := by simp [State.fold, h]

theorem fold_setFold (pf q : Nat) (f : Fold) : (s.setFold pf f).fold q = if q = pf then f else s.fold q := by
  simp [State.fold, State.setFold, Store.get_set]

theorem fold_modFold (pf q : Nat) (g : Fold → Fold) :
    (s.modFold pf g).fold q = if q = pf then g (s.fold pf) else s.fold q := by
  simp [State.modFold, fold_setFold]

theorem fold_modSeq (pf q : Nat) (g : Seq → Seq) :
    (s.modSeq pf g).fold q = if q = pf then { s.fold pf with seq := g (s.fold pf).seq } else s.fold q := by
  simp [State.modSeq, fold_modFold]

theorem fold_modPe (pf q : Nat) (g : PeRegs → PeRegs) :
    (modPe pf g s).fold q = if q = pf then { s.fold pf with pe := g (s.fold pf).pe } else s.fold q := by
  simp [modPe, fold_modFold]

@[simp] theorem fold_modPen (p q : Nat) (g : Pen → Pen) : (s.modPen p g).fold q = s.fold q := rfl
@[simp] theorem fold_mapPens (q : Nat) (g : Pen → Pen) : (s.mapPens g).fold q = s.fold q := rfl
@[simp] theorem fold_markFaulted (p q : Nat) : (markFaulted p s).fold q = s.fold q := rfl
@[simp] theorem fold_setPlane (pf a q : Nat) (v : Plane) : (s.setPlane pf a v).fold q = s.fold q := rfl
@[simp] theorem fold_setBadRows (pf a q : Nat) (v : BitVec 64) : (s.setBadRows pf a v).fold q = s.fold q := rfl
@[simp] theorem fold_setDword (pf a q : Nat) (v : Half) : (s.setDword pf a v).fold q = s.fold q := rfl
@[simp] theorem fold_setIword (pf a q : Nat) (v : BitVec 14) : (s.setIword pf a v).fold q = s.fold q := rfl
@[simp] theorem fold_inOneCycle {f : State → State} (h : ∀ t, (f t).arr = t.arr) (q : Nat) : (inOneCycle f s).fold q = s.fold q :=
  fold_of_arr (inOneCycle_arr s h) q
@[simp] theorem fold_fire (a d q : Nat) : (fire a d s).fold q = s.fold q := fold_of_arr (by simp) q
@[simp] theorem fold_cairnWrite (k u : Nat) (l : List Byte) (a b : Bool) (q : Nat) :
    (cairnWrite k u l a b s).fold q = s.fold q := fold_of_arr (by simp) q
@[simp] theorem fold_setReg (n : RegName) (i j : Nat) (v : Word) (q : Nat) : (s.setReg n i j v).fold q = s.fold q := rfl
@[simp] theorem fold_setRf (n : RegName) (i hi lo x j q : Nat) : (s.setRf n i hi lo x j).fold q = s.fold q := rfl
@[simp] theorem fold_raise (n : RegName) (i : Nat) (m : Word) (q : Nat) : (s.raise n i m).fold q = s.fold q := rfl
@[simp] theorem fold_count (n : RegName) (i hi lo k q : Nat) : (s.count n i hi lo k).fold q = s.fold q := rfl

@[simp] theorem fold_faultPenOf (pf q : Nat) : (faultPenOf pf s).fold q = s.fold q := by
  unfold faultPenOf; split <;> simp

@[simp] theorem fold_writePlane (pf a : Nat) (en v : Plane) (q : Nat) : (writePlane pf a en v s).fold q = s.fold q := by
  unfold writePlane; dsimp only; split <;> simp

theorem fold_landLoad (pf : Nat) (l : Option (Fin 8 × Half)) (b : Bool) (q : Nat) (h : q ≠ pf) :
    (landLoad pf l b s).fold q = s.fold q := by
  unfold landLoad
  split
  · rfl
  · simp [fold_modSeq, h]

@[simp] theorem pe_landLoad (pf : Nat) (l : Option (Fin 8 × Half)) (b : Bool) (q : Nat) :
    ((landLoad pf l b s).fold q).pe = (s.fold q).pe := by
  unfold landLoad
  split
  · rfl
  · rw [fold_modSeq]; split <;> simp_all

@[simp] theorem fold_endStopped (c : Ictx) (q : Nat) : (endStopped c s).fold q = s.fold q := by
  unfold endStopped; split <;> simp

@[simp] theorem pe_modSeq (pf q : Nat) (g : Seq → Seq) : ((s.modSeq pf g).fold q).pe = (s.fold q).pe := by
  rw [fold_modSeq]; split <;> simp_all

/-- What a parity check leaves of every fold: all but the frame's parity marks (R75). -/
theorem fold_parityFail (pf a : Nat) (m : BitVec 64) (b : Bool) (q : Nat) :
    (parityFail pf a m b s).fold q =
      { s.fold q with parFrame := ((parityFail pf a m b s).fold q).parFrame
                      faultFired := ((parityFail pf a m b s).fold q).faultFired } := by
  unfold parityFail faultFold
  dsimp only
  (repeat' split) <;> simp [fold_modFold] <;> (repeat' split) <;> simp_all

@[simp] theorem pe_parityFail (pf a : Nat) (m : BitVec 64) (b : Bool) (q : Nat) :
    ((parityFail pf a m b s).fold q).pe = (s.fold q).pe := by rw [fold_parityFail]
@[simp] theorem seq_parityFail (pf a : Nat) (m : BitVec 64) (b : Bool) (q : Nat) :
    ((parityFail pf a m b s).fold q).seq = (s.fold q).seq := by rw [fold_parityFail]
@[simp] theorem seed_parityFail (pf a : Nat) (m : BitVec 64) (b : Bool) (q : Nat) :
    ((parityFail pf a m b s).fold q).seed = (s.fold q).seed := by rw [fold_parityFail]

/-- A check of rows whose parity agrees does nothing. -/
@[simp] theorem parityFail_zero (pf a : Nat) (b : Bool) : parityFail pf a 0 b s = s := by simp [parityFail]

/-! ### Planes -/

theorem plane_of_arr {s t : State} (h : t.arr = s.arr) (pf a : Nat) : t.plane pf a = s.plane pf a := by
  unfold State.plane State.planeDflt State.fold; rw [h]

/-- A plane reads the same where B-space and the fold's seed are the same. -/
theorem plane_congr {s t : State} (h : t.arr.planes = s.arr.planes) (pf a : Nat)
    (hs : (t.fold pf).seed = (s.fold pf).seed) : t.plane pf a = s.plane pf a := by
  unfold State.plane State.planeDflt; rw [h, hs]

theorem plane_setPlane (pf a pf' a' : Nat) (v : Plane) (h : pf' = pf ∧ a' % 2048 = a % 2048) :
    (s.setPlane pf a v).plane pf' a' = v := by
  obtain ⟨rfl, h⟩ := h
  unfold State.plane; rw [h]
  exact Store.get_set_self _ _ _ _

theorem plane_setPlane_ne (pf a pf' a' : Nat) (v : Plane) (h : ¬ (pf' = pf ∧ a' % 2048 = a % 2048)) :
    (s.setPlane pf a v).plane pf' a' = s.plane pf' a' := by
  have hk : 2048 * pf' + a' % 2048 ≠ 2048 * pf + a % 2048 := by omega
  exact Store.get_set_ne' _ _ _ _ hk

/-! ### Placement: no two logical folds have one physical fold -/

theorem pfOf_inj {a b k : Nat} (ha : s.pfOf a = some k) (hb : s.pfOf b = some k) : a = b := by
  unfold State.pfOf at ha hb
  split at ha
  · cases ha
  · split at hb
    · cases hb
    · split at ha <;> split at hb <;> simp_all

/-- A logical fold lies on one of the 272 folds, which says so. -/
theorem pfOf_some {lf k : Nat} (h : s.pfOf lf = some k) : k < 272 ∧ (s.fold k).lf = lf := by
  unfold State.pfOf at h
  split at h
  · cases h
  · split at h <;> simp_all

theorem members_nodup (p : Pen) : p.members.Nodup := by
  unfold Pen.members
  exact List.Nodup.map (fun a b h => Nat.add_left_cancel h) List.nodup_range

/-- The members of a pen are distinct folds. -/
theorem memberFolds_nodup (p : Pen) : (s.memberFolds p).Nodup := by
  unfold State.memberFolds
  exact (members_nodup p).filterMap fun a b k ha hb => pfOf_inj s ha hb

theorem liveFolds_nodup (p : Pen) : (s.liveFolds p).Nodup := (memberFolds_nodup s p).filter _

/-! ### Issue -/

/-- An instruction that nothing holds, and that any repeat in progress may repeat in time, issues (R31, R94, R112). -/
theorem issue_runs {p : Nat} {k : Uk} {words : Nat} {cond : Option (BitVec 2)} {body : Ictx → State → State} {c : Ictx}
    {reads : Option (BitVec 2 × Fin 8)} (h : penIssue s p = some c)
    (hr : ∀ r, c.seq.rep = some r → k.repeatable = true ∧ r.fits s.frame.cycle (issueCost s c k) = true)
    (ha : raHolds s c k (executesNow cond c.seq) = false) (hu : unitHolds s c k (executesNow cond c.seq) = false) :
    issue p k words cond body s reads = issueBody c k words (executesNow cond c.seq) body s := by
  unfold issue
  cases hq : c.seq.rep with
  | none => simp [h, ha, hu, hq]
  | some r => simp [h, ha, hu, hq, hr r hq]

/-- The pen that issues is the one found there, its leader the fold named, and the sequencer that fold's. -/
theorem penIssue_some {p : Nat} {c : Ictx} (h : penIssue s p = some c) :
    s.penAt p = some c.pen ∧ c.pen.leader = some c.pf ∧ c.seq = (s.fold c.pf).seq ∧ (s.fold c.pf).power = .on := by
  unfold penIssue at h
  split at h
  · cases h
  · rename_i q hq
    split at h
    · cases h
    · rename_i pf hpf
      have h' := h
      simp only [Option.ite_none_right_eq_some, Option.some.injEq, Bool.and_eq_true, beq_iff_eq] at h'
      obtain ⟨hc, rfl⟩ := h'
      exact ⟨hq, hpf, rfl, hc.1.1.1.1.2⟩

/-! ### Each live member -/

/-- Something done in each of distinct folds, which changes no other fold, leaves a fold outside the list as it was. -/
theorem forFolds_other (l : List Nat) (g : Nat → State → State) (q : Nat) (hq : q ∉ l)
    (hg : ∀ pf s, q ≠ pf → (g pf s).fold q = s.fold q) : (forFolds l g s).fold q = s.fold q := by
  unfold forFolds
  induction l generalizing s with
  | nil => rfl
  | cons x t ih =>
    simp only [List.mem_cons, not_or] at hq
    rw [List.foldl_cons, ih _ hq.2, hg _ _ hq.1]

/-- What is kept by the action on each fold is kept by all of them. -/
theorem forFolds_keeps {α : Type} (f : State → α) (l : List Nat) (g : Nat → State → State)
    (hg : ∀ pf s, f (g pf s) = f s) : f (forFolds l g s) = f s := by
  unfold forFolds
  induction l generalizing s with
  | nil => rfl
  | cons x t ih => rw [List.foldl_cons, ih, hg]

end Sys2Proof.Machine
end

