-- ==== Sys2Proof/Laws/Bits.lean ====
section
/-! SUPPORT. What fields and bits of a register read as after a field has been replaced. -/

namespace Sys2Proof

/-- The bits of a field. -/
theorem testBit_fld {w : Nat} (v : BitVec w) (hi lo k : Nat) :
    (fld v hi lo).testBit k = (decide (k < hi + 1 - lo) && v.getLsbD (lo + k)) := by
  unfold fld
  rw [Nat.testBit_mod_two_pow, Nat.testBit_shiftRight]
  rfl

/-- The bits of a register in which a field has been replaced. -/
theorem bit_setFld {w : Nat} (v : BitVec w) (hi lo x k : Nat) (hk : k < w) :
    bit (setFld v hi lo x) k = if lo ≤ k ∧ k ≤ hi then x.testBit (k - lo) else bit v k := by
  unfold bit setFld
  simp only [BitVec.getLsbD_or, BitVec.getLsbD_and, BitVec.getLsbD_not, BitVec.getLsbD_ofNat, hk, decide_true, Bool.true_and,
    Nat.testBit_shiftLeft, Nat.testBit_mod_two_pow, Nat.testBit_two_pow_sub_one]
  by_cases h1 : lo ≤ k
  · by_cases h2 : k ≤ hi
    · have : k - lo < hi + 1 - lo := by omega
      simp [h1, h2, this]
    · have : ¬ k - lo < hi + 1 - lo := by omega
      simp [h1, h2, this]
  · simp [h1]

/-- The bits of a register in which one has been replaced. -/
theorem bit_setBit {w : Nat} (v : BitVec w) (i k : Nat) (b : Bool) (hk : k < w) :
    bit (setBit v i b) k = if k = i then b else bit v k := by
  unfold setBit
  rw [bit_setFld v i i _ k hk]
  by_cases h : k = i
  · subst h; cases b <;> simp
  · rw [if_neg (by omega), if_neg h]

/-- A field reads as what replaced it. -/
theorem fld_setFld_self {w : Nat} (v : BitVec w) (hi lo x : Nat) (h : hi < w) :
    fld (setFld v hi lo x) hi lo = x % 2 ^ (hi + 1 - lo) := by
  apply Nat.eq_of_testBit_eq
  intro k
  rw [testBit_fld, Nat.testBit_mod_two_pow]
  by_cases hk : k < hi + 1 - lo
  · have := bit_setFld v hi lo x (lo + k) (by omega)
    unfold bit at this
    rw [this, if_pos (by omega)]
    simp
  · simp [hk]

/-- A field apart from the one replaced reads as before. -/
theorem fld_setFld_apart {w : Nat} (v : BitVec w) (hi lo x hi' lo' : Nat) (h' : hi' < w) (h : hi < lo' ∨ hi' < lo) :
    fld (setFld v hi lo x) hi' lo' = fld v hi' lo' := by
  apply Nat.eq_of_testBit_eq
  intro k
  rw [testBit_fld, testBit_fld]
  by_cases hk : k < hi' + 1 - lo'
  · have := bit_setFld v hi lo x (lo' + k) (by omega)
    unfold bit at this
    rw [this, if_neg (by omega)]
  · simp [hk]

/-- A field is below 2 to its width. -/
theorem fld_lt {w : Nat} (v : BitVec w) (hi lo : Nat) : fld v hi lo < 2 ^ (hi + 1 - lo) := Nat.mod_lt _ (by positivity)

/-- A saturating counter has gone up (R402 and the counters of every chapter). -/
theorem fld_satAdd {w : Nat} (v : BitVec w) (hi lo n : Nat) (h : hi < w) :
    fld (satAdd v hi lo n) hi lo = min (fld v hi lo + n) (2 ^ (hi + 1 - lo) - 1) := by
  unfold satAdd
  rw [fld_setFld_self _ _ _ _ h, Nat.mod_eq_of_lt]
  have : 0 < 2 ^ (hi + 1 - lo) := by positivity
  omega

/-- A field apart from a counter that has gone up reads as before. -/
theorem fld_satAdd_apart {w : Nat} (v : BitVec w) (hi lo n hi' lo' : Nat) (h' : hi' < w) (h : hi < lo' ∨ hi' < lo) :
    fld (satAdd v hi lo n) hi' lo' = fld v hi' lo' := fld_setFld_apart _ _ _ _ _ _ h' h

/-- A one-bit field is a bit. -/
theorem fld_bit {w : Nat} (v : BitVec w) (i : Nat) : fld v i i = (bit v i).toNat := by
  apply Nat.eq_of_testBit_eq
  intro k
  rw [testBit_fld, Nat.testBit_bool_toNat]
  cases k <;> simp [bit]

@[simp] theorem leBytes_length (n x : Nat) : (leBytes n x).length = n := by
  induction n generalizing x with
  | zero => rfl
  | succ n ih => simp [leBytes, ih]

/-- The number of the bytes of a number. -/
theorem leNat_leBytes (n x : Nat) : leNat (leBytes n x) = x % 256 ^ n := by
  induction n generalizing x with
  | zero => simp [leBytes, leNat, Nat.mod_one]
  | succ n ih =>
    have h : x % 256 ^ (n + 1) = x % 256 + 256 * (x / 256 % 256 ^ n) := by rw [Nat.pow_succ', Nat.mod_mul]
    rw [leBytes, leNat, ih, BitVec.toNat_ofNat, h]

/-- The bytes of the number of as many bytes. -/
theorem leBytes_leNat (l : List Byte) : leBytes l.length (leNat l) = l := by
  induction l with
  | nil => rfl
  | cons b t ih =>
    rw [List.length_cons, leBytes, leNat]
    have h1 : BitVec.ofNat 8 (b.toNat + 256 * leNat t) = b := by
      apply BitVec.eq_of_toNat_eq
      rw [BitVec.toNat_ofNat]
      have := b.isLt
      omega
    have h2 : (b.toNat + 256 * leNat t) / 256 = leNat t := by have := b.isLt; omega
    rw [h1, h2, ih]

theorem leNat_lt (l : List Byte) : leNat l < 256 ^ l.length := by
  induction l with
  | nil => simp [leNat]
  | cons b t ih =>
    rw [leNat, List.length_cons, Nat.pow_succ]
    have := b.isLt
    omega

end Sys2Proof
end

