-- ==== Sys2Proof/Laws/Regs.lean ====
section
/-! SUPPORT. No two registers share an address, and what that gives: a register reads as it was last written, and a write
of one leaves every other. -/

namespace Sys2Proof.Machine

/-- The indexes of a register lie in its table. -/
def Reg.Within (r : Reg) : Prop := r.i < r.name.row.icount ∧ r.j < r.name.row.jcount

/-- The address of an element of a table. -/
def RegRow.elem (w : RegRow) (i j : Nat) : Nat := w.base + i * w.istride + j * w.jstride

theorem Reg.addr_elem (r : Reg) : r.addr = r.name.row.elem r.i r.j := rfl

/-- Two tables share no address. -/
def RowsApart (v w : RegRow) : Prop :=
  ∀ i j k l, i < v.icount → j < v.jcount → k < w.icount → l < w.jcount → v.elem i j ≠ w.elem k l

/-- The last address of a table. -/
def RegRow.last (w : RegRow) : Nat := w.elem (w.icount - 1) (w.jcount - 1)

theorem RegRow.elem_le_last (w : RegRow) {i j : Nat} (hi : i < w.icount) (hj : j < w.jcount) : w.elem i j ≤ w.last := by
  have h1 := Nat.mul_le_mul_right w.istride (Nat.le_sub_one_of_lt hi)
  have h2 := Nat.mul_le_mul_right w.jstride (Nat.le_sub_one_of_lt hj)
  unfold RegRow.last RegRow.elem; omega

theorem RegRow.base_le_elem (w : RegRow) (i j : Nat) : w.base ≤ w.elem i j := by
  unfold RegRow.elem; omega

/-- A divisor of all four strides of two tables. -/
def strideGcd (v w : RegRow) : Nat := Nat.gcd (Nat.gcd v.istride v.jstride) (Nat.gcd w.istride w.jstride)

/-- The residue of every address of a table by a divisor of its strides. -/
theorem RegRow.elem_mod (w : RegRow) (g i j : Nat) (hi : g ∣ w.istride) (hj : g ∣ w.jstride) : w.elem i j % g = w.base % g := by
  obtain ⟨a, ha⟩ := hi
  obtain ⟨b, hb⟩ := hj
  have : w.elem i j = w.base + g * (i * a + j * b) := by unfold RegRow.elem; rw [ha, hb]; ring
  rw [this, Nat.add_mul_mod_self_left]

/-- The last residue of a table by its first stride. -/
def RegRow.lastRes (w : RegRow) : Nat := w.base % w.istride + (w.jcount - 1) * w.jstride

/-- The residue of an address by the first stride, where the inner index stays below it. -/
theorem RegRow.elem_res (w : RegRow) {i j : Nat} (hj : j < w.jcount) (h : w.lastRes < w.istride) :
    w.elem i j % w.istride = w.base % w.istride + j * w.jstride := by
  have h2 := Nat.mul_le_mul_right w.jstride (Nat.le_sub_one_of_lt hj)
  have h3 : w.base % w.istride + j * w.jstride < w.istride := by unfold RegRow.lastRes at h; omega
  have : w.elem i j = w.base % w.istride + j * w.jstride + w.istride * (w.base / w.istride + i) := by
    have := Nat.mod_add_div w.base w.istride
    unfold RegRow.elem
    rw [Nat.mul_add, Nat.mul_comm w.istride i]
    omega
  rw [this, Nat.add_mul_mod_self_left, Nat.mod_eq_of_lt h3]

/-- A check that two tables share no address: their ranges, their residues by a divisor of the strides, or their residues by
a common first stride, are apart. -/
def rowsApart (v w : RegRow) : Bool :=
  v.last < w.base || w.last < v.base || v.base % strideGcd v w != w.base % strideGcd v w ||
    (v.istride == w.istride && v.lastRes < v.istride && w.lastRes < w.istride &&
      (v.lastRes < w.base % w.istride || w.lastRes < v.base % v.istride))

theorem rowsApart_sound {v w : RegRow} (h : rowsApart v w = true) : RowsApart v w := by
  intro i j k l hi hj hk hl he
  unfold rowsApart at h
  simp only [Bool.or_eq_true, Bool.and_eq_true, decide_eq_true_eq, bne_iff_ne, beq_iff_eq] at h
  have a1 := v.elem_le_last hi hj
  have a2 := w.elem_le_last hk hl
  have a3 := v.base_le_elem i j
  have a4 := w.base_le_elem k l
  rcases h with ((h | h) | h) | ⟨⟨⟨h1, h2⟩, h3⟩, h4⟩
  · omega
  · omega
  · apply h
    rw [← v.elem_mod (strideGcd v w) i j, ← w.elem_mod (strideGcd v w) k l, he]
    · exact (Nat.gcd_dvd_right _ _).trans (Nat.gcd_dvd_left _ _)
    · exact (Nat.gcd_dvd_right _ _).trans (Nat.gcd_dvd_right _ _)
    · exact (Nat.gcd_dvd_left _ _).trans (Nat.gcd_dvd_left _ _)
    · exact (Nat.gcd_dvd_left _ _).trans (Nat.gcd_dvd_right _ _)
  · have b1 := v.elem_res (i := i) hj h2
    have b2 := w.elem_res (i := k) hl h3
    rw [he, h1] at b1
    have c1 := Nat.mul_le_mul_right v.jstride (Nat.le_sub_one_of_lt hj)
    have c2 := Nat.mul_le_mul_right w.jstride (Nat.le_sub_one_of_lt hl)
    unfold RegRow.lastRes at h4
    rw [h1] at h4
    omega

/-- Tables that share no address, in either order. -/
theorem RowsApart.symm {v w : RegRow} (h : RowsApart v w) : RowsApart w v :=
  fun i j k l hi hj hk hl he => h k l i j hk hl hi hj he.symm

/-- A check that the elements of one table have different addresses. -/
def rowInj (w : RegRow) : Bool :=
  (w.icount ≤ 1 || (w.jcount - 1) * w.jstride < w.istride) && (w.jcount ≤ 1 || 0 < w.jstride)

theorem rowInj_sound {w : RegRow} (h : rowInj w = true) {i j k l : Nat} (hi : i < w.icount) (hj : j < w.jcount)
    (hk : k < w.icount) (hl : l < w.jcount) (he : w.elem i j = w.elem k l) : i = k ∧ j = l := by
  unfold rowInj at h
  simp only [Bool.or_eq_true, Bool.and_eq_true, decide_eq_true_eq] at h
  unfold RegRow.elem at he
  have c1 := Nat.mul_le_mul_right w.jstride (Nat.le_sub_one_of_lt hj)
  have c2 := Nat.mul_le_mul_right w.jstride (Nat.le_sub_one_of_lt hl)
  have hik : i = k := by
    rcases h.1 with h1 | h1
    · omega
    · rcases Nat.lt_trichotomy i k with hlt | heq | hgt
      · have := Nat.mul_le_mul_right w.istride hlt
        rw [Nat.succ_mul] at this
        omega
      · exact heq
      · have := Nat.mul_le_mul_right w.istride hgt
        rw [Nat.succ_mul] at this
        omega
  subst hik
  refine ⟨rfl, ?_⟩
  rcases h.2 with h2 | h2
  · omega
  · exact Nat.eq_of_mul_eq_mul_right h2 (by omega)

/-- A row is apart from each of a list. -/
def apartFrom (v : RegRow) : List RegName → Bool
  | [] => true
  | n :: t => rowsApart v n.row && apartFrom v t

/-- Every two of a list are apart. -/
def allApart : List RegName → Bool
  | [] => true
  | n :: t => apartFrom n.row t && allApart t

theorem apartFrom_sound {v : RegRow} {l : List RegName} (h : apartFrom v l = true) : ∀ n ∈ l, RowsApart v n.row := by
  induction l with
  | nil => simp
  | cons n t ih =>
    simp only [apartFrom, Bool.and_eq_true] at h
    intro m hm
    rcases List.mem_cons.mp hm with rfl | hm
    · exact rowsApart_sound h.1
    · exact ih h.2 m hm

theorem allApart_sound {l : List RegName} (h : allApart l = true) :
    l.Pairwise fun n m => RowsApart n.row m.row := by
  induction l with
  | nil => exact .nil
  | cons n t ih =>
    simp only [allApart, Bool.and_eq_true] at h
    exact .cons (apartFrom_sound h.1) (ih h.2)

theorem regNames_apart : allApart regNames = true := by decide +kernel

theorem regNames_complete (n : RegName) : n ∈ regNames := by cases n <;> decide

theorem regNames_rowInj (n : RegName) : rowInj n.row = true := by cases n <;> decide

/-- The tables of two registers share no address. -/
theorem rows_apart {n m : RegName} (h : n ≠ m) : RowsApart n.row m.row := by
  have : Std.Symm fun n m : RegName => RowsApart n.row m.row := ⟨fun _ _ => RowsApart.symm⟩
  exact (allApart_sound regNames_apart).forall (regNames_complete n) (regNames_complete m) h

/-- No two registers share an address (R388, R389). -/
theorem Reg.addr_inj {r g : Reg} (hr : r.Within) (hg : g.Within) (h : r.addr = g.addr) : r = g := by
  obtain ⟨n, i, j⟩ := r
  obtain ⟨m, k, l⟩ := g
  by_cases hn : n = m
  · subst hn
    obtain ⟨rfl, rfl⟩ := rowInj_sound (regNames_rowInj n) hr.1 hr.2 hg.1 hg.2 h
    rfl
  · exact absurd h (rows_apart hn i j k l hr.1 hr.2 hg.1 hg.2)

/-! ### Reading after writing -/

variable (s : State)

@[simp] theorem reg_setReg_self (n : RegName) (i j : Nat) (v : Word) : (s.setReg n i j v).reg n i j = v :=
  Store.get_set_self _ _ _ _

/-- A write leaves every register at another address. -/
theorem reg_setReg_of_addr {n m : RegName} {i j k l : Nat} (v : Word) (h : Reg.addr ⟨m, k, l⟩ ≠ Reg.addr ⟨n, i, j⟩) :
    (s.setReg n i j v).reg m k l = s.reg m k l :=
  Store.get_set_ne' _ _ _ _ h

/-- A write leaves every other register (R6). -/
theorem reg_setReg_ne {n m : RegName} {i j k l : Nat} (v : Word) (hn : (⟨n, i, j⟩ : Reg).Within) (hm : (⟨m, k, l⟩ : Reg).Within)
    (h : (⟨m, k, l⟩ : Reg) ≠ ⟨n, i, j⟩) : (s.setReg n i j v).reg m k l = s.reg m k l :=
  reg_setReg_of_addr s v fun he => h (Reg.addr_inj hm hn he)

/-- A write leaves every register of another name. -/
theorem reg_setReg_name {n m : RegName} {i j k l : Nat} (v : Word) (hi : i < n.row.icount) (hj : j < n.row.jcount)
    (hk : k < m.row.icount) (hl : l < m.row.jcount) (h : m ≠ n) : (s.setReg n i j v).reg m k l = s.reg m k l :=
  reg_setReg_of_addr s v (rows_apart h k l i j hk hl hi hj)

/-- A write leaves every other element of its register. -/
theorem reg_setReg_elem {n : RegName} {i j k l : Nat} (v : Word) (hi : i < n.row.icount) (hj : j < n.row.jcount)
    (hk : k < n.row.icount) (hl : l < n.row.jcount) (h : ¬ (k = i ∧ l = j)) :
    (s.setReg n i j v).reg n k l = s.reg n k l :=
  reg_setReg_ne s v ⟨hi, hj⟩ ⟨hk, hl⟩ fun he => h (by cases he; exact ⟨rfl, rfl⟩)

/-- A register reads the same where the stored registers are the same. -/
theorem reg_of_regs {s t : State} (h : t.regs = s.regs) (n : RegName) (i j : Nat) : t.reg n i j = s.reg n i j := by
  unfold State.reg; rw [h]

@[simp] theorem reg_setRf_self (n : RegName) (i hi lo x j : Nat) :
    (s.setRf n i hi lo x j).reg n i j = setFld (s.reg n i j) hi lo x := reg_setReg_self _ _ _ _ _

@[simp] theorem reg_count_self (n : RegName) (i hi lo k : Nat) :
    (s.count n i hi lo k).reg n i = satAdd (s.reg n i) hi lo k := reg_setReg_self _ _ _ _ _

theorem reg_setRf_name {n m : RegName} {i j k l : Nat} (hi lo x : Nat) (h1 : i < n.row.icount) (h2 : j < n.row.jcount)
    (hk : k < m.row.icount) (hl : l < m.row.jcount) (h : m ≠ n) : (s.setRf n i hi lo x j).reg m k l = s.reg m k l :=
  reg_setReg_name s _ h1 h2 hk hl h

theorem reg_count_name {n m : RegName} {i k l : Nat} (hi lo x : Nat) (h1 : i < n.row.icount) (h2 : 0 < n.row.jcount)
    (hk : k < m.row.icount) (hl : l < m.row.jcount) (h : m ≠ n) : (s.count n i hi lo x).reg m k l = s.reg m k l :=
  reg_setReg_name s _ h1 h2 hk hl h

end Sys2Proof.Machine
end

