-- ==== Sys2Proof/Laws/Droveway.lean ====
section
/-! SUPPORT. The droveway's queues, the bank ports and the secure pasture: what each shared operation answers. -/

namespace Sys2Proof.Machine

variable (s : State)

/-! Banks, and registers whose bits the hardware sets. -/

theorem bank_setBank (b c : Nat) (k : Bank) : (s.setBank b k).bank c = if c = b then k else s.bank c := by
  simp [State.bank, State.setBank, Store.get_set]

theorem bank_modBank (b c : Nat) (g : Bank → Bank) :
    (s.modBank b g).bank c = if c = b then g (s.bank c) else s.bank c := by
  rw [State.modBank, bank_setBank]
  split
  · next h => rw [h]
  · rfl

theorem reg_raise_self (n : RegName) (i : Nat) (m : Word) : (s.raise n i m).reg n i = s.reg n i ||| m :=
  reg_setReg_self s n i 0 _

theorem setThisCycle_raise (n : RegName) (i : Nat) (m : Word) :
    (s.raise n i m).setThisCycle n i = s.setThisCycle n i ||| m := by
  simp [State.raise, State.setThisCycle]

/-! Output queues. -/

theorem queueKey_inj {n m p q : Nat} {a b : Net} (hp : p < 8) (hq : q < 8) (h : queueKey n a p = queueKey m b q) :
    n = m ∧ a = b ∧ p = q := by
  have ha : netCode a < 8 := by cases a <;> decide
  have hb : netCode b < 8 := by cases b <;> decide
  have hc : netCode a = netCode b → a = b := by cases a <;> cases b <;> decide
  unfold queueKey at h
  exact ⟨by omega, hc (by omega), by omega⟩

theorem queue_setQueue_self (n : Nat) (net : Net) (port t : Nat) (l : List Queued) :
    (s.setQueue n net port t l).queue n net port = touchHeads t l [] := by
  simp [State.queue, State.setQueue]

theorem queue_setQueue_other {n m p q : Nat} {a b : Net} (t : Nat) (l : List Queued) (hp : p < 8) (hq : q < 8)
    (h : ¬ (m = n ∧ b = a ∧ q = p)) : (s.setQueue n a p t l).queue m b q = s.queue m b q := by
  have hk : queueKey m b q ≠ queueKey n a p := fun e => h (queueKey_inj hq hp e)
  simp [State.queue, State.setQueue, hk]

/-- Noting since when flits wait at a head changes no packet and no order. -/
theorem touchHeads_pkts (t : Nat) (l : List Queued) (seen : List (Nat × BitVec 2 × BitVec 2)) :
    (touchHeads t l seen).map Queued.pkt = l.map Queued.pkt := by
  induction l generalizing seen with
  | nil => rfl
  | cons x l ih =>
    unfold touchHeads
    split
    · simp [ih]
    · simp only [List.map_cons, ih]
      split <;> rfl

/-- A packet that no queue of its port holds is taken as it is. -/
theorem atLocal_absent {n port : Nat} {net : Net} {f : Pkt → Bool} (h : ∀ x ∈ s.queue n net port, f x.pkt = false) :
    atLocal n net port f s = some s := by
  have : (s.queue n net port).find? (fun x => f x.pkt) = none := by simpa using h
  simp [atLocal, this]

/-! Bank ports. -/

theorem best_eq_none {α : Type} (f : α → α → Bool) (l : List α) : best f l = none ↔ l = [] := by
  cases l with
  | nil => simp [best]
  | cons x l =>
    simp only [best, reduceCtorEq, iff_false]
    split <;> simp

/-- The best of a list is one of it. -/
theorem best_mem {α : Type} {f : α → α → Bool} {l : List α} {x : α} (h : best f l = some x) : x ∈ l := by
  induction l generalizing x with
  | nil => cases h
  | cons y l ih =>
    unfold best at h
    split at h
    · simp_all
    · next z hz =>
      split at h <;> cases h
      · exact List.mem_cons_of_mem _ (ih hz)
      · exact List.mem_cons_self ..

/-- A user that need wait for no other is served itself (R219, R220). -/
theorem settled_of_none {b n : Nat} {l : List PortUser} {u : PortUser} (h : l.find? (fun v => mustPrecede s b v u) = none) :
    settled s b l n u = u := by
  cases n <;> simp [settled, h]

/-- Who is served in another's place is a user of the port as well. -/
theorem settled_mem {b n : Nat} {l : List PortUser} {u : PortUser} (h : u ∈ l) : settled s b l n u ∈ l := by
  induction n generalizing u with
  | zero => exact h
  | succ n ih =>
    unfold settled
    split
    · exact h
    · next v hv => exact ih (List.mem_of_find?_eq_some hv)

/-- A port serves one of those at it and of those that have just come. -/
theorem portChoice_mem {b : Nat} {new : List PortUser} {x : Nat × PortUser} (h : portChoice s b new = some x) :
    x.2 ∈ (s.bank b).waiting.map .req ++ ownRows s b ++ new := by
  obtain ⟨u, hu, rfl⟩ := Option.map_eq_some_iff.mp h
  exact settled_mem s (best_mem hu)

/-- At a port at which nothing waits an access that has just come is served. -/
theorem portChoice_free {b : Nat} (u : PortUser) (hw : (s.bank b).waiting = []) (hm : ownMove s b = false) :
    ∃ p, portChoice s b [u] = some (p, u) := by
  have hr : ownRows s b = [] := by simpa [ownMove] using hm
  have h : portChoice s b [u] = some ((u.rank s b).1, settled s b [u] 1 u) := by simp [portChoice, hw, hr, best]
  have hu : settled s b [u] 1 u = u := List.mem_singleton.mp (settled_mem s (List.mem_singleton_self u))
  exact ⟨_, hu ▸ h⟩

/-- An access at a free port at which nothing waits goes first. -/
theorem portAccess_free {b p urg w : Nat} (wr : Bool) (n : Nat) (hw : (s.bank b).waiting = []) (hm : ownMove s b = false)
    (hb : (s.bank b).busy = false) : portAccess b p urg w wr n s = s := by
  cases n with
  | zero => rfl
  | succ n =>
    obtain ⟨k, hk⟩ := portChoice_free s (.unit p urg w wr) hw hm
    simp [portAccess, hb, hk]

/-! The secure pasture (R239). -/

@[simp] theorem wipeDue_none (h : s.hub.wipe = none) : wipeDue s = s := by simp [wipeDue, h]

theorem wipeDue_wiping (h : s.wiping = true) : wipeDue s = s := by
  unfold State.wiping at h
  unfold wipeDue
  split <;> simp_all

theorem wipeDue_done {w : Wipe} (h : s.hub.wipe = some w) (ht : w.till ≤ s.frame.time) : wipeDue s = endWipe w.bad s := by
  simp [wipeDue, h, Nat.not_lt.mpr ht]

@[simp] theorem failedRow_hub (r : Nat) : (failedRow r s).hub = s.hub := by
  unfold failedRow
  generalize List.range 64 = l
  induction l generalizing s with
  | nil => rfl
  | cons i l ih => exact ih _

/-- A wipe that has ended is no longer in progress, whatever it found. -/
theorem endWipe_wipe (bad : Option Nat) : (endWipe bad s).hub.wipe = none := by
  unfold endWipe
  cases bad with
  | none => rfl
  | some r => simp

end Sys2Proof.Machine
end

