-- ==== Sys2Proof/Laws/Events.lean ====
section
/-! SUPPORT. What a source that fires, and a Cairn record, change: which registers, which pending bits, which records. -/

namespace Sys2Proof.Machine

variable (s : State)

/-- The registers a source that fires can change (R402 to R405). -/
def firesRegs : List RegName := [.evtPend, .evtStat, .ringhead, .msixPba]

/-- Stored values of every register of the map but some are as they were. -/
def RegsSame (l : List RegName) (s t : State) : Prop :=
  ∀ n, n ∉ l → ∀ i < n.row.icount, ∀ j < n.row.jcount, t.reg n i j = s.reg n i j

theorem RegsSame.refl (l : List RegName) : RegsSame l s s := fun _ _ _ _ _ _ => rfl

theorem RegsSame.trans {l : List RegName} {s t u : State} (h : RegsSame l s t) (g : RegsSame l t u) : RegsSame l s u :=
  fun n hn i hi j hj => (g n hn i hi j hj).trans (h n hn i hi j hj)

theorem RegsSame.of_regs (l : List RegName) {s t : State} (h : t.regs = s.regs) : RegsSame l s t :=
  fun n _ i _ j _ => reg_of_regs h n i j

theorem RegsSame.weaken {l l' : List RegName} {s t : State} (h : RegsSame l s t) (hl : ∀ n ∈ l, n ∈ l') : RegsSame l' s t :=
  fun n hn => h n fun hm => hn (hl n hm)

/-- A write of a register of the map leaves those of other names. -/
theorem RegsSame.setReg {n : RegName} {i j : Nat} (v : Word) (hi : i < n.row.icount) (hj : j < n.row.jcount) :
    RegsSame [n] s (s.setReg n i j v) := fun m hm k hk l hl =>
  reg_setReg_name s v hi hj hk hl (by simpa using hm)

theorem RegsSame.setRf {n : RegName} {i j : Nat} (hi lo x : Nat) (h1 : i < n.row.icount) (h2 : j < n.row.jcount) :
    RegsSame [n] s (s.setRf n i hi lo x j) := RegsSame.setReg s _ h1 h2

theorem RegsSame.count {n : RegName} {i : Nat} (hi lo x : Nat) (h1 : i < n.row.icount) (h2 : 0 < n.row.jcount) :
    RegsSame [n] s (s.count n i hi lo x) := RegsSame.setReg s _ h1 h2

theorem RegsSame.setPba {v : Nat} (b : Bool) (h : v < 64) : RegsSame [.msixPba] s (setPba v b s) :=
  RegsSame.setReg s _ (show v / 32 < 2 by omega) (show 0 < 1 by omega)

theorem RegsSame.signal {v : Nat} (h : v < 64) : RegsSame [.msixPba] s (signal v s) := by
  unfold Machine.signal
  split
  · exact .setPba s true h
  · (repeat' split) <;> exact .of_regs _ rfl

/-- Bits that the hardware sets leave every other register. -/
theorem RegsSame.raise {n : RegName} {i : Nat} (m : Word) (h1 : i < n.row.icount) (h2 : 0 < n.row.jcount) :
    RegsSame [n] s (s.raise n i m) := RegsSame.setReg s _ h1 h2

theorem RegsSame.ringRecord (src detail : Nat) : RegsSame [.evtStat, .ringhead] s (ringRecord src detail s) := by
  unfold Machine.ringRecord
  dsimp only
  split
  · exact (RegsSame.count s (n := .evtStat) (i := 0) 31 16 1 (by decide) (by decide)).weaken (by simp)
  · have := (RegsSame.setReg (s.emit (.hostWrite (s.evt.base + 16 * s.rf .ringhead 0 11 0)
      (eventRecord src detail s.evt.phase s.frame))) (n := .ringhead) (i := 0) (j := 0)
      (BitVec.ofNat 32 ((s.rf .ringhead 0 11 0 + 1) % s.evt.size)) (show 0 < 1 by omega) (show 0 < 1 by omega)).weaken
      (l' := [.evtStat, .ringhead]) (by simp)
    split
    · exact fun n hn i hi j hj => this n hn i hi j hj
    · exact fun n hn i hi j hj => this n hn i hi j hj

/-- The routing of an event changes only the ring, its status and the PBA. -/
theorem RegsSame.routeEvent (src detail : Nat) : RegsSame [.evtStat, .ringhead, .msixPba] s (routeEvent src detail s) := by
  unfold Machine.routeEvent
  dsimp only
  have h1 : RegsSame [.evtStat, .ringhead, .msixPba] s (Machine.ringRecord src detail s) :=
    (RegsSame.ringRecord s src detail).weaken (by simp)
  have h2 : ∀ (t : State) (v : Nat), v < 64 → RegsSame [.evtStat, .ringhead, .msixPba] s t →
      RegsSame [.evtStat, .ringhead, .msixPba] s (Machine.signal v t) :=
    fun t v hv ht => ht.trans ((RegsSame.signal t hv).weaken (by simp))
  split
  · refine h2 _ _ (fld_lt _ 5 0) ?_
    split
    · exact h1
    · exact .refl _ _
  · split
    · exact h1
    · exact .refl _ _

/-- A source that fires changes only the registers of events. -/
theorem RegsSame.fire {src : Nat} (detail : Nat) (h : src < 1280) : RegsSame firesRegs s (fire src detail s) := by
  have h0 : RegsSame firesRegs s (s.raise .evtPend (src / 32) (setBit 0#32 (src % 32) true)) :=
    (RegsSame.raise s (n := .evtPend) _ (show src / 32 < 40 by omega) (show 0 < 1 by omega)).weaken (by simp [firesRegs])
  unfold Machine.fire
  dsimp only
  split
  · exact h0.trans ((RegsSame.routeEvent _ src detail).weaken (by simp [firesRegs]))
  · exact h0.trans (.of_regs _ rfl)

/-- Setting a bit of nothing, and joining it, is setting the bit. -/
theorem or_setBit (v : Word) (k : Nat) : v ||| setBit 0#32 k true = setBit v k true := by
  refine BitVec.eq_of_getLsbD_eq fun i hi => ?_
  have e : ∀ (w : Word), w.getLsbD i = bit w i := fun _ => rfl
  rw [BitVec.getLsbD_or, e, e, e, bit_setBit _ _ _ _ hi, bit_setBit _ _ _ _ hi]
  by_cases hk : i = k
  · simp [hk]
  · simp [hk, bit]

/-- After a source has fired, PEND is what it was with that source's bit set (R402). -/
theorem evtPend_fire {src : Nat} (detail k : Nat) (h : src < 1280) (hk : k < 40) :
    (Machine.fire src detail s).reg .evtPend k =
      if k = src / 32 then setBit (s.reg .evtPend (src / 32)) (src % 32) true else s.reg .evtPend k := by
  have h2 : ∀ t : State, (Machine.routeEvent src detail t).reg .evtPend k = t.reg .evtPend k := fun t =>
    RegsSame.routeEvent t src detail .evtPend (by simp) k (show k < 40 by omega) 0 (show 0 < 1 by omega)
  have h3 : (s.raise .evtPend (src / 32) (setBit 0#32 (src % 32) true)).reg .evtPend k =
      if k = src / 32 then setBit (s.reg .evtPend (src / 32)) (src % 32) true else s.reg .evtPend k := by
    rw [← or_setBit (s.reg .evtPend (src / 32))]
    by_cases hkk : k = src / 32
    · subst hkk
      rw [if_pos rfl]
      exact reg_setReg_self s .evtPend (src / 32) 0 _
    · rw [if_neg hkk]
      exact reg_setReg_elem s _ (show src / 32 < 40 by omega) (show 0 < 1 by omega) (show k < 40 by omega)
        (show 0 < 1 by omega) (by simp [hkk])
  unfold Machine.fire
  dsimp only
  split
  · rw [h2, h3]
  · exact h3

/-- A source that has fired is pending, every other as before (R402). -/
theorem pend_fire {src k : Nat} (detail : Nat) (h : src < 1280) (hk : k < 1280) :
    bit ((Machine.fire src detail s).reg .evtPend (k / 32)) (k % 32) =
      (if k = src then true else bit (s.reg .evtPend (k / 32)) (k % 32)) := by
  rw [evtPend_fire s detail _ h (by omega)]
  by_cases h1 : k / 32 = src / 32
  · rw [if_pos h1, bit_setBit _ _ _ _ (by omega), h1]
    by_cases h2 : k = src
    · subst h2; simp
    · have : k % 32 ≠ src % 32 := by omega
      simp [h2, this]
  · have h2 : k ≠ src := by rintro rfl; exact h1 rfl
    rw [if_neg h1, if_neg h2]

/-! ### The Cairn -/

/-- One record more, the oldest unpinned one dropped from a full Cairn (R448). -/
theorem cairnWrite_next (code unit : Nat) (detail : List Byte) (pin fromFw : Bool) :
    (cairnWrite code unit detail pin fromFw s).cairn.next = (s.cairn.next + 1) % 2 ^ 32 := by
  unfold cairnWrite nearWrap
  dsimp only
  (repeat' split) <;> simp [Cairn.push]

/-- A record changes CAIRN.STATUS and what an event changes, no other register. -/
theorem RegsSame.cairnWrite (code unit : Nat) (detail : List Byte) (pin fromFw : Bool) :
    RegsSame (.cairnStatus :: firesRegs) s (cairnWrite code unit detail pin fromFw s) := by
  unfold Machine.cairnWrite nearWrap
  dsimp only
  have h0 : ∀ u : State, u.regs = s.regs → RegsSame (.cairnStatus :: firesRegs) s u := fun u h => .of_regs _ h
  have h1 : ∀ u : State, RegsSame (.cairnStatus :: firesRegs) s u →
      RegsSame (.cairnStatus :: firesRegs) s (u.setRf .cairnStatus 0 31 31 1) := fun u h =>
    h.trans ((RegsSame.setRf u 31 31 1 (show 0 < 1 by omega) (show 0 < 1 by omega)).weaken (by simp))
  have h2 : ∀ u : State, RegsSame (.cairnStatus :: firesRegs) s u →
      RegsSame (.cairnStatus :: firesRegs) s (Machine.fire 20 0 u) := fun u h =>
    h.trans ((RegsSame.fire u 0 (by omega)).weaken fun n hn => List.mem_cons_of_mem _ hn)
  (repeat' split) <;> first
    | exact h2 _ (h1 _ (h0 _ rfl))
    | exact h1 _ (h0 _ rfl)
    | exact h2 _ (h0 _ rfl)
    | exact h0 _ rfl

end Sys2Proof.Machine
end

