-- ==== Sys2Proof/Laws/Mem.lean ====
section
/-! SUPPORT. The pasture's bytes: what a write reads as, what it leaves, and that it keeps the canonical form. -/

namespace Sys2Proof.Machine

variable (m : List Host.Cell)

/-- A byte written reads as written, every other as before. -/
theorem memByte_memSetByte (a x : Nat) (b : Byte) :
    memByte (memSetByte m a b) x = if x = a then b else memByte m x := Store.get_set _ _ _ _ _

/-- Bytes written read as written, every other as before. -/
theorem memByte_memSetBytes (a x : Nat) (l : List Byte) :
    memByte (memSetBytes m a l) x = if a ≤ x ∧ x < a + l.length then l.getD (x - a) 0 else memByte m x := by
  induction l generalizing m a with
  | nil => simp [memSetBytes]
  | cons b t ih =>
    rw [memSetBytes, ih, memByte_memSetByte]
    by_cases h1 : x = a
    · subst h1
      rw [if_neg (by omega), if_pos rfl, if_pos (by simp)]
      simp
    · rw [if_neg h1]
      by_cases h2 : a + 1 ≤ x ∧ x < a + 1 + t.length
      · rw [if_pos h2, if_pos (by simp; omega)]
        obtain ⟨k, rfl⟩ : ∃ k, x = a + 1 + k := ⟨x - (a + 1), by omega⟩
        have e1 : a + 1 + k - (a + 1) = k := by omega
        have e2 : a + 1 + k - a = k + 1 := by omega
        rw [e1, e2, List.getD_cons_succ]
      · rw [if_neg h2, if_neg (by simp; omega)]

/-- A byte outside those written reads as before. -/
theorem memByte_memSetBytes_outside {a x : Nat} {l : List Byte} (h : x < a ∨ a + l.length ≤ x) :
    memByte (memSetBytes m a l) x = memByte m x := by
  rw [memByte_memSetBytes, if_neg (by omega)]

@[simp] theorem memBytes_length (a n : Nat) : (memBytes m a n).length = n := by
  induction n generalizing a with
  | zero => rfl
  | succ n ih => simp [memBytes, ih]

/-- Bytes read the same where each of them does. -/
theorem memBytes_congr {m m' : List Host.Cell} {a n : Nat} (h : ∀ x, a ≤ x → x < a + n → memByte m' x = memByte m x) :
    memBytes m' a n = memBytes m a n := by
  induction n generalizing a with
  | zero => rfl
  | succ n ih =>
    rw [memBytes, memBytes, h a (by omega) (by omega), ih fun x h1 h2 => h x (by omega) (by omega)]

/-- Bytes written read back. -/
theorem memBytes_memSetBytes (a : Nat) (l : List Byte) : memBytes (memSetBytes m a l) a l.length = l := by
  induction l generalizing m a with
  | nil => rfl
  | cons b t ih =>
    rw [List.length_cons, memBytes, memSetBytes, ih]
    congr 1
    rw [memByte_memSetBytes_outside _ (by omega), memByte_memSetByte, if_pos rfl]

/-- A word written reads back. -/
theorem memWord_memSetWord (a : Nat) (v : Dword) : memWord (memSetWord m a v) a = v := by
  unfold memWord memSetWord
  have := memBytes_memSetBytes m a (leBytes 8 v.toNat)
  rw [leBytes_length] at this
  rw [this, leNat_leBytes]
  apply BitVec.eq_of_toNat_eq
  have := v.isLt
  rw [BitVec.toNat_ofNat]
  omega

/-- A word apart from the one written reads as before. -/
theorem memWord_memSetWord_apart {a x : Nat} (v : Dword) (h : x + 8 ≤ a ∨ a + 8 ≤ x) :
    memWord (memSetWord m a v) x = memWord m x := by
  unfold memWord memSetWord
  rw [memBytes_congr]
  intro y h1 h2
  exact memByte_memSetBytes_outside _ (by rw [leBytes_length]; omega)

/-- A byte outside a written word reads as before. -/
theorem memByte_memSetWord_outside {a x : Nat} (v : Dword) (h : x < a ∨ a + 8 ≤ x) :
    memByte (memSetWord m a v) x = memByte m x :=
  memByte_memSetBytes_outside _ (by rw [leBytes_length]; omega)

/-! ### The canonical form -/

theorem wf_memSetByte (a : Nat) (b : Byte) (h : Store.wf m 0 = true) : Store.wf (memSetByte m a b) 0 = true :=
  Store.wf_set _ _ _ _ h

theorem wf_memSetBytes (a : Nat) (l : List Byte) (h : Store.wf m 0 = true) : Store.wf (memSetBytes m a l) 0 = true := by
  induction l generalizing m a with
  | nil => exact h
  | cons b t ih => exact ih _ _ (wf_memSetByte _ _ _ h)

theorem wf_memSetWord (a : Nat) (v : Dword) (h : Store.wf m 0 = true) : Store.wf (memSetWord m a v) 0 = true :=
  wf_memSetBytes _ _ _ h

end Sys2Proof.Machine
end

