-- ==== Sys2Proof/Laws/Pens.lean ====
section
/-! SUPPORT. The pens' records: which operations keep them, up to a whole tick that activates nothing. -/

namespace Sys2Proof.Machine

/-- The PENS records in force, in their order (R63, R282). -/
def State.cfgs (s : State) : List PenCfg := s.arr.pens.map (·.cfg)

theorem cfgs_of_arr {s t : State} (h : t.arr = s.arr) : t.cfgs = s.cfgs := by simp [State.cfgs, h]

theorem cfgs_of_pens {s t : State} (h : t.arr.pens = s.arr.pens) : t.cfgs = s.cfgs := by simp [State.cfgs, h]

variable (s : State)

theorem cfgs_mapPens (g : Pen → Pen) (h : ∀ p, (g p).cfg = p.cfg) : (s.mapPens g).cfgs = s.cfgs := by
  simp only [State.cfgs, State.mapPens, List.map_map]
  exact List.map_congr_left fun p _ => h p

theorem cfgs_modPen (f : Nat) (g : Pen → Pen) (h : ∀ p, (g p).cfg = p.cfg) : (s.modPen f g).cfgs = s.cfgs := by
  simp only [State.cfgs, State.modPen, List.map_map]
  refine List.map_congr_left fun p _ => ?_
  simp only [Function.comp_apply]
  split
  · exact h p
  · rfl

@[simp] theorem cfgs_modFold (pf : Nat) (g : Fold → Fold) : (s.modFold pf g).cfgs = s.cfgs := rfl
@[simp] theorem cfgs_modSeq (pf : Nat) (g : Seq → Seq) : (s.modSeq pf g).cfgs = s.cfgs := rfl
@[simp] theorem cfgs_modPe (pf : Nat) (g : PeRegs → PeRegs) : (modPe pf g s).cfgs = s.cfgs := rfl
@[simp] theorem cfgs_fire (a d : Nat) : (fire a d s).cfgs = s.cfgs := cfgs_of_arr (by simp)
@[simp] theorem cfgs_cairnWrite (k u : Nat) (l : List Byte) (a b : Bool) : (cairnWrite k u l a b s).cfgs = s.cfgs :=
  cfgs_of_arr (by simp)
@[simp] theorem cfgs_setReg (n : RegName) (i j : Nat) (v : Word) : (s.setReg n i j v).cfgs = s.cfgs := rfl
@[simp] theorem cfgs_setRf (n : RegName) (i hi lo x j : Nat) : (s.setRf n i hi lo x j).cfgs = s.cfgs := rfl
@[simp] theorem cfgs_raise (n : RegName) (i : Nat) (m : Word) : (s.raise n i m).cfgs = s.cfgs := rfl
@[simp] theorem cfgs_count (n : RegName) (i hi lo k : Nat) : (s.count n i hi lo k).cfgs = s.cfgs := rfl
@[simp] theorem cfgs_modBank (b : Nat) (g : Bank → Bank) : (s.modBank b g).cfgs = s.cfgs := rfl
@[simp] theorem cfgs_modEng (e : Nat) (g : Engine → Engine) : (s.modEng e g).cfgs = s.cfgs := rfl
@[simp] theorem cfgs_modLane (l : Nat) (g : Lane → Lane) : (s.modLane l g).cfgs = s.cfgs := rfl

/-- A fold over a list keeps what each step keeps. -/
theorem foldl_keeps {α β : Type} (f : State → β) (l : List α) (g : State → α → State) (h : ∀ s x, f (g s x) = f s) :
    f (l.foldl g s) = f s := by
  induction l generalizing s with
  | nil => rfl
  | cons x t ih => rw [List.foldl_cons, ih, h]

@[simp] theorem cfgs_setEgress (c : EgCh) (e : Egress) : (s.setEgress c e).cfgs = s.cfgs := by cases c <;> rfl

@[simp] theorem cfgs_drivePin (b k : Bool) (w p : Nat) : (drivePin b k w p s).cfgs = s.cfgs := by
  unfold drivePin
  split <;> rfl

@[simp] theorem cfgs_emitCommand (c : EgCh) (x : EgCmd) : (emitCommand c x s).cfgs = s.cfgs := by
  cases c with
  | pins g =>
    unfold emitCommand emitPins drivePins
    dsimp only
    split
    · rfl
    · exact foldl_keeps (s.setReg .pgLast g 0 ((x.words.headD 0).setWidth 32)) State.cfgs _ _ fun t p => cfgs_drivePin t _ _ _ _
  | lane l k =>
    show (emitLane l k x s).cfgs = s.cfgs
    unfold emitLane
    split <;> rfl

@[simp] theorem cfgs_egressTick (c : EgCh) : (egressTick c s).cfgs = s.cfgs := by
  unfold egressTick
  dsimp only
  split
  · rfl
  · split <;> simp

@[simp] theorem cfgs_closeFrame : (closeFrame s).cfgs = s.cfgs := by
  unfold closeFrame
  dsimp only
  rw [foldl_keeps _ State.cfgs _ _ fun t c => cfgs_egressTick t c, cfgs_mapPens _ _ fun p => by split <;> rfl]
  split <;> rfl

@[simp] theorem cfgs_forgetFlight (p : Pkt) : (forgetFlight p s).cfgs = s.cfgs := by
  unfold forgetFlight
  (repeat' split) <;> rfl

@[simp] theorem cfgs_shutOut (b : Nat) (p : Pkt) : (shutOut b p s).cfgs = s.cfgs := by
  unfold shutOut refuse sendError
  dsimp only
  split
  · exact (cfgs_of_arr (by simp)).trans (cfgs_forgetFlight s p)
  · exact cfgs_forgetFlight s p

@[simp] theorem cfgs_sealBank (b : Nat) : (sealBank b s).cfgs = s.cfgs := by
  unfold sealBank
  dsimp only
  rw [foldl_keeps _ State.cfgs _ _ fun t c => cfgs_shutOut t _ _]
  rfl

@[simp] theorem cfgs_wipeFold (pf : Nat) : (wipeFold pf s).cfgs = s.cfgs := rfl

@[simp] theorem cfgs_loseRun (pf : Nat) : (loseRun pf s).cfgs = s.cfgs := rfl

@[simp] theorem cfgs_dropFold (t : Power) (pf : Nat) : (dropFold t pf s).cfgs = s.cfgs := by
  unfold dropFold
  dsimp only
  (repeat' split) <;> simp

@[simp] theorem cfgs_sealFold (pf : Nat) : (sealFold pf s).cfgs = s.cfgs := by
  unfold sealFold
  dsimp only
  (repeat' split) <;> simp

@[simp] theorem cfgs_sealEng (e : Nat) : (sealEng e s).cfgs = s.cfgs := by
  unfold sealEng
  split <;> simp

@[simp] theorem cfgs_sealAll : (sealAll s).cfgs = s.cfgs := by
  unfold sealAll
  dsimp only
  rw [foldl_keeps _ State.cfgs _ _ fun t c => cfgs_sealEng t c, foldl_keeps _ State.cfgs _ _ fun t c => cfgs_sealBank t c,
    foldl_keeps _ State.cfgs _ _ fun t c => cfgs_sealFold t c]

@[simp] theorem cfgs_endWipe (b : Option Nat) : (endWipe b s).cfgs = s.cfgs := by
  unfold endWipe
  dsimp only
  split
  · rfl
  · rw [cfgs_cairnWrite]
    unfold failedRow
    exact foldl_keeps _ State.cfgs _ _ fun t i => rfl

@[simp] theorem cfgs_wipeDue : (wipeDue s).cfgs = s.cfgs := by
  unfold wipeDue
  (repeat' split) <;> simp

/-! ### What passes routers and uses a bank's port -/

@[simp] theorem arr_probeHit (n : Nat) (w : Word × Word × Word) : (probeHit n w s).arr = s.arr := by
  have h : ∀ t : State, (probeTrace n w t).arr = t.arr := fun t => by simp [probeTrace]
  unfold probeHit
  dsimp only
  (repeat' split) <;> simp [h]

@[simp] theorem arr_probePacket (n i : Nat) (p : Pkt) : (probePacket n i p s).arr = s.arr := by
  unfold probePacket
  dsimp only
  (repeat' split) <;> first | exact arr_probeHit _ _ _ | rfl

@[simp] theorem arr_bridgeRetries (n f : Nat) : (bridgeRetries n f s).arr = s.arr := rfl

@[simp] theorem arr_passRouters (t : TabSet) (d k n i : Nat) (p : Pkt) : (passRouters t d k n i p s).arr = s.arr := by
  induction k generalizing n i p s with
  | zero => rfl
  | succ k ih =>
    unfold passRouters
    extract_lets u
    have h : u.arr = s.arr := by
      show State.arr (if _ then probePacket n i p s else s) = _
      split <;> simp
    split
    · exact h
    · split
      · exact h
      · split
        · exact h
        · split
          · exact (ih _ _ _ _).trans ((arr_bridgeRetries _ _ _).trans h)
          · exact (ih _ _ _ _).trans h

/-- A packet on its way changes no fold and no pen. -/
@[simp] theorem arr_travel (p : Pkt) : (travel p s).arr = s.arr := arr_passRouters s _ _ _ _ _ _

@[simp] theorem cfgs_takeNotice (n : Nat) : (takeNotice n s).cfgs = s.cfgs := by
  unfold takeNotice
  split
  · rfl
  · exact cfgs_of_arr (arr_travel s _)

@[simp] theorem arr_invalLine (b l : Nat) : (invalLine b l s).arr = s.arr := by
  unfold invalLine
  split
  · rfl
  · exact foldl_keeps _ State.arr _ _ fun t x => rfl

@[simp] theorem arr_bankStore (b w : Nat) (v : Dword) : (bankStore b w v s).arr = s.arr := by
  unfold bankStore
  extract_lets s1 s2 s3
  refine (arr_invalLine s3 _ _).trans ?_
  show State.arr (if _ then _ else s2) = _
  split <;> rfl

@[simp] theorem arr_bankWrite (b w : Nat) (m : BitVec 8) (v : Dword) : (bankWrite b w m v s).arr = s.arr := by
  have h : (bankRead b w false s).2.arr = s.arr := by simp
  unfold bankWrite
  split
  · simp
  · split <;> rename_i e <;> rw [e] at h <;> simp_all

@[simp] theorem arr_bankAtomic (b w : Nat) (f : Dword → Dword) : (bankAtomic b w f s).2.arr = s.arr := by
  have h : (bankRead b w false s).2.arr = s.arr := by simp
  unfold bankAtomic
  split <;> rename_i e <;> rw [e] at h <;> simp_all

@[simp] theorem arr_holdLine (b l e : Nat) : (holdLine b l e s).arr = s.arr := by
  unfold holdLine
  simp only [State.modBank_arr]
  split
  · rfl
  · split <;> simp

@[simp] theorem arr_answerRead (b : Nat) (p : Pkt) (l : List Dword) : (answerRead b p l s).arr = s.arr := by
  unfold answerRead
  dsimp only
  (repeat' split) <;> simp

@[simp] theorem arr_wordDone (b : Nat) (x : Waiting) (l : List Dword) : (wordDone b x l s).arr = s.arr := rfl
@[simp] theorem arr_leavePort (b : Nat) (x : Waiting) : (leavePort b x s).arr = s.arr := rfl
@[simp] theorem arr_occupy (b : Nat) : (occupy b s).arr = s.arr := rfl

@[simp] theorem arr_tookWord (b : Nat) (x : Waiting) (v : Dword) : (tookWord b x v s).arr = s.arr := by
  unfold tookWord
  split <;> simp

@[simp] theorem arr_ackIf (b : Nat) (p : Pkt) : (ackIf b p s).arr = s.arr := by
  unfold ackIf
  split <;> rfl

@[simp] theorem arr_readWord (b : Nat) (x : Waiting) : (readWord b x s).arr = s.arr := by
  have h : (bankRead b x.rest.1 false s).2.arr = s.arr := by simp
  unfold readWord sendError
  split
  · rfl
  · split <;> rename_i e <;> rw [e] at h
    · simp_all
    · split <;> simp_all

@[simp] theorem arr_writeWord (b : Nat) (x : Waiting) : (writeWord b x s).arr = s.arr := by
  unfold writeWord
  dsimp only
  split <;> simp

@[simp] theorem arr_doAtomic (b : Nat) (p : Pkt) (f : Dword → Dword) (r : Bool) : (doAtomic b p f r s).arr = s.arr := by
  have h : (bankAtomic b p.word.toNat f s).2.arr = s.arr := by simp
  unfold doAtomic sendError
  split <;> rename_i e <;> rw [e] at h <;> split <;> simp_all

@[simp] theorem arr_writeOne (b : Nat) (p : Pkt) : (writeOne b p s).arr = s.arr := by
  unfold writeOne
  split
  · dsimp only
    split <;> simp
  all_goals simp

/-- The service of a waiting request changes no fold and no pen. -/
@[simp] theorem arr_serveWord (b : Nat) (x : Waiting) : (serveWord b x s).arr = s.arr := by
  unfold serveWord
  (repeat' split) <;> simp

@[simp] theorem cfgs_faultPenOf (pf : Nat) : (faultPenOf pf s).cfgs = s.cfgs := by
  unfold faultPenOf markFaulted
  split
  · rfl
  · exact cfgs_modPen _ _ _ fun p => rfl

@[simp] theorem cfgs_writeRow (pf a y : Nat) (v : Dword) (b : Bool) : (writeRow pf a y v b s).cfgs = s.cfgs := by
  unfold writeRow
  dsimp only
  unfold snapRow
  (repeat' split) <;> rfl

@[simp] theorem cfgs_faultFold (pf : Nat) : (faultFold pf s).cfgs = s.cfgs := by
  unfold faultFold
  split
  · rfl
  · exact (cfgs_modFold _ _ _).trans (cfgs_of_arr (inOneCycle_arr s fun t => by simp))

@[simp] theorem cfgs_parityFail (pf a : Nat) (m : BitVec 64) (b : Bool) : (parityFail pf a m b s).cfgs = s.cfgs := by
  unfold parityFail
  dsimp only
  split
  · rfl
  · (repeat' split) <;> simp

@[simp] theorem cfgs_readRow (pf a y : Nat) : (readRow pf a y s).2.cfgs = s.cfgs := cfgs_parityFail s _ _ _ _

@[simp] theorem cfgs_popMove (pf : Nat) : (popMove pf s).cfgs = s.cfgs := rfl
@[simp] theorem cfgs_modMove (pf : Nat) (g : Move → Move) : (s.modMove pf g).cfgs = s.cfgs := rfl

@[simp] theorem cfgs_rowDone (pf : Nat) (m : Move) : (rowDone pf m s).cfgs = s.cfgs := by
  unfold rowDone
  split <;> simp

@[simp] theorem cfgs_isolatedSent (n : Nat) : (isolatedSent n s).cfgs = s.cfgs := cfgs_of_arr (by simp)

@[simp] theorem cfgs_moveIsolated (pf n : Nat) : (moveIsolated pf n s).cfgs = s.cfgs := by simp [moveIsolated]

@[simp] theorem cfgs_serveWord (b : Nat) (x : Waiting) : (serveWord b x s).cfgs = s.cfgs := cfgs_of_arr (by simp)
@[simp] theorem cfgs_bankStore (b w : Nat) (v : Dword) : (bankStore b w v s).cfgs = s.cfgs := cfgs_of_arr (by simp)
@[simp] theorem cfgs_bankRead (b w : Nat) (c : Bool) : (bankRead b w c s).2.cfgs = s.cfgs := cfgs_of_arr (by simp)

@[simp] theorem cfgs_ownRow (pf : Nat) (m : Move) : (ownRow pf m s).cfgs = s.cfgs := by
  have h : (bankRead pf (slotWord m.slot m.row) false s).2.cfgs = s.cfgs := by simp
  unfold ownRow
  split
  · simp
  · split
    · simp
    · split <;> rename_i e <;> rw [e] at h <;> simp_all

@[simp] theorem cfgs_present (p : Pkt) : (present p s).cfgs = s.cfgs := by
  unfold present
  dsimp only
  split <;> rfl

@[simp] theorem cfgs_feedMove (pf : Nat) (m : Move) (g : BitVec 13) : (feedMove pf m g s).cfgs = s.cfgs := by
  unfold feedMove
  refine foldl_keeps s State.cfgs _ _ fun t x => ?_
  dsimp only
  split <;> rfl

@[simp] theorem cfgs_readNext (pf : Nat) (m : Move) : (readNext pf m s).cfgs = s.cfgs := by
  have h : (readRow pf m.plane.toNat m.data.length s).2.cfgs = s.cfgs := cfgs_readRow s _ _ _
  unfold readNext
  dsimp only
  (repeat' split) <;> simp

@[simp] theorem cfgs_sendMove (pf : Nat) (m : Move) : (sendMove pf m s).cfgs = s.cfgs := by
  unfold sendMove
  split <;> simp

@[simp] theorem cfgs_farRow (pf : Nat) (m : Move) : (farRow pf m s).cfgs = s.cfgs := by
  unfold farRow
  (repeat' split) <;> simp

/-- A mover that goes on by one row keeps the pens' records. -/
@[simp] theorem cfgs_moveRow (pf : Nat) : (moveRow pf s).cfgs = s.cfgs := by
  unfold moveRow
  (repeat' split) <;> simp

@[simp] theorem cfgs_serveUser (b : Nat) (u : PortUser) : (serveUser b u s).cfgs = s.cfgs := by
  unfold serveUser
  split <;> simp

/-- What goes before an access at a port keeps the pens' records. -/
@[simp] theorem cfgs_portAccess (b p u w : Nat) (wr : Bool) (n : Nat) : (portAccess b p u w wr n s).cfgs = s.cfgs := by
  induction n generalizing s with
  | zero => rfl
  | succ n ih =>
    unfold portAccess secondCycle
    (repeat' split) <;> simp [ih]

/-! ### The steps of a tick -/

@[simp] theorem cfgs_advanceTo (c : Nat) : (advanceTo c s).cfgs = s.cfgs := cfgs_of_arr (by simp)

@[simp] theorem cfgs_tickEpoch : (tickEpoch s).cfgs = s.cfgs := by
  unfold tickEpoch
  dsimp only
  (repeat' split) <;> simp [State.cfgs]

theorem cfgs_tickActivate (h : s.ldr.load = none) (g : s.ldr.act ≠ .pending) : tickActivate s = (none, s) := by
  unfold tickActivate State.isT0
  rw [h]
  simp [g]

@[simp] theorem cfgs_releaseGroup (g : Nat) : (releaseGroup g s).cfgs = s.cfgs := by
  unfold releaseGroup
  exact foldl_keeps s State.cfgs _ _ fun t p => rfl

@[simp] theorem cfgs_resetLane (l : Nat) : (resetLane l s).cfgs = s.cfgs := by
  have : (linkChange l false s).cfgs = s.cfgs := by
    unfold linkChange
    dsimp only
    (repeat' split) <;> simp
  unfold resetLane
  exact this

@[simp] theorem cfgs_commitReg (r : Reg) (w : Word) : (commitReg r w s).cfgs = s.cfgs := by
  unfold commitReg
  dsimp only
  split
  · rfl
  · split
    · rfl
    · rw [cfgs_releaseGroup, cfgs_setReg]
  · split <;> rfl
  · split
    · rw [cfgs_resetLane, cfgs_setReg]
    · rfl
  · rfl

@[simp] theorem cfgs_decideGroup (d : Option Image) : (decideGroup d s).cfgs = s.cfgs := by
  unfold decideGroup
  split
  · rfl
  · split
    · rfl
    · dsimp only
      split
      · simp [State.cfgs]
      · rw [foldl_keeps _ State.cfgs _ _ fun t x => by split <;> simp]
        rfl

@[simp] theorem cfgs_tickTables (d : Option Image) : (tickTables d s).cfgs = s.cfgs := by
  unfold tickTables
  dsimp only
  split <;> rfl

@[simp] theorem cfgs_restoreFold (wb : BitVec 11) (pf : Nat) (x : FoldSnap) : (restoreFold wb pf x s).cfgs = s.cfgs := by
  unfold restoreFold
  refine (foldl_keeps _ State.cfgs _ _ fun t y => ?_).trans rfl
  unfold writePlane
  dsimp only
  split <;> rfl

@[simp] theorem cfgs_dropSpeculative (pf : Nat) : (dropSpeculative pf s).cfgs = s.cfgs := by
  unfold dropSpeculative
  extract_lets head u
  split
  · refine (foldl_keeps _ State.cfgs _ _ fun t y => ?_).trans rfl
    split
    · rfl
    · split <;> rfl
  · rfl

@[simp] theorem cfgs_undoRunAhead (pf : Nat) (ra : RunAhead) : (undoRunAhead pf ra s).cfgs = s.cfgs := by
  unfold undoRunAhead
  dsimp only
  rw [cfgs_count, cfgs_modSeq, foldl_keeps _ State.cfgs _ _ fun t y => by simp]

@[simp] theorem cfgs_landLoad (pf : Nat) (l : Option (Fin 8 × Half)) (b : Bool) : (landLoad pf l b s).cfgs = s.cfgs := by
  unfold landLoad
  split <;> rfl

@[simp] theorem cfgs_stopPen (f : Nat) (k : Bool) : (stopPen f k s).cfgs = s.cfgs := by
  unfold stopPen
  dsimp only
  split
  · rfl
  · refine (cfgs_modPen _ _ _ fun p => ?_).trans ?_
    · rfl
    · split
      · rfl
      · split <;> simp

@[simp] theorem cfgs_isolateOne (pf : Nat) : (isolateOne pf s).cfgs = s.cfgs := rfl

@[simp] theorem cfgs_markSubst (p : Pen) (b : Bool) : (markSubst p b s).cfgs = s.cfgs := by
  unfold markSubst
  exact foldl_keeps s State.cfgs _ _ fun t p => rfl

@[simp] theorem cfgs_loseMember (pf w : Nat) : (loseMember pf w s).cfgs = s.cfgs := by
  unfold loseMember markLost
  dsimp only
  rw [cfgs_cairnWrite, cfgs_modFold]
  split
  · rfl
  · exact cfgs_modPen _ _ _ fun p => rfl

@[simp] theorem cfgs_startSubst (pf t : Nat) : (startSubst pf t s).cfgs = s.cfgs := by
  unfold startSubst
  dsimp only
  split
  · rfl
  · split
    · rfl
    · split
      · exact cfgs_loseMember s _ _
      · rfl

@[simp] theorem cfgs_serveWaiting (l : List (Nat × Nat)) : (serveWaiting l s).cfgs = s.cfgs := by
  induction l generalizing s with
  | nil => rfl
  | cons x t ih =>
    unfold serveWaiting
    split
    · rfl
    · rw [ih, cfgs_startSubst]

@[simp] theorem cfgs_isolate (pf : Nat) : (isolate pf s).cfgs = s.cfgs := by
  unfold isolate
  dsimp only
  split
  · rfl
  · split
    · rw [cfgs_isolateOne]
      unfold failsInLoad
      split <;> rfl
    · split
      · refine ((cfgs_markSubst _ _ _).trans (cfgs_modPen _ _ _ fun p => ?_)).trans ?_
        · rfl
        · rw [cfgs_isolateOne, cfgs_stopPen]; rfl
      · refine (((cfgs_startSubst _ _ _).trans (cfgs_markSubst _ _ _)).trans (cfgs_modPen _ _ _ fun p => ?_)).trans ?_
        · rfl
        · rw [cfgs_isolateOne, cfgs_stopPen]; rfl

@[simp] theorem cfgs_tickFold (pf : Nat) : (tickFold pf s).cfgs = s.cfgs := by
  unfold tickFold
  dsimp only
  (repeat' split) <;> rfl

@[simp] theorem cfgs_tickParity : (tickParity s).2.cfgs = s.cfgs := by
  unfold tickParity
  dsimp only
  rw [foldl_keeps _ State.cfgs _ _ fun t x => cfgs_isolate t x, foldl_keeps _ State.cfgs _ _ fun t x => cfgs_tickFold t x]

@[simp] theorem cfgs_tickRejoin (l : List Nat) : (tickRejoin l s).cfgs = s.cfgs := by
  unfold tickRejoin
  refine foldl_keeps s State.cfgs _ _ fun t x => ?_
  split
  · refine (cfgs_markSubst _ _ _).trans (cfgs_modPen _ _ _ fun p => ?_)
    rfl
  · rfl

@[simp] theorem cfgs_setFoldPower (t : Power) (pf : Nat) : (setFoldPower t pf s).cfgs = s.cfgs := by
  unfold setFoldPower
  dsimp only
  (repeat' split) <;> simp

@[simp] theorem cfgs_openFold (pf : Nat) : (openFold pf s).cfgs = s.cfgs := cfgs_takeNotice s pf

@[simp] theorem cfgs_startFoldPower (t : Power) (pf : Nat) : (startFoldPower t pf s).cfgs = s.cfgs := by
  unfold startFoldPower
  split <;> simp

@[simp] theorem cfgs_setBankPower (b : Nat) : (setBankPower b s).cfgs = s.cfgs := by
  unfold setBankPower
  dsimp only
  (repeat' split) <;> rfl

@[simp] theorem cfgs_setEngPower (b : Nat) : (setEngPower b s).cfgs = s.cfgs := by
  unfold setEngPower
  dsimp only
  (repeat' split) <;> rfl

@[simp] theorem cfgs_applyPower (x : PowRec) : (applyPower x s).cfgs = s.cfgs := by
  unfold applyPower
  dsimp only
  split
  · exact cfgs_modPen _ _ _ fun p => rfl
  · split <;> rfl
  · rfl

@[simp] theorem cfgs_tickPower (l : List Nat) : (tickPower l s).cfgs = s.cfgs := by
  unfold tickPower
  refine (foldl_keeps _ State.cfgs _ _ fun t x => cfgs_setEngPower t x).trans ?_
  refine (foldl_keeps _ State.cfgs _ _ fun t x => cfgs_setBankPower t x).trans ?_
  refine (foldl_keeps _ State.cfgs _ _ fun t x => ?_).trans ?_
  · split
    · exact cfgs_setFoldPower t _ _
    · rfl
  refine (foldl_keeps _ State.cfgs _ _ fun t x => ?_).trans ?_
  · split
    · rfl
    · refine foldl_keeps t State.cfgs _ _ fun u y => ?_
      split
      · exact cfgs_startFoldPower u _ _
      · exact cfgs_setFoldPower u _ _
  refine (cfgs_mapPens _ _ ?_).trans ?_
  · intro p
    rfl
  exact foldl_keeps s State.cfgs _ _ fun t x => cfgs_applyPower t x

@[simp] theorem cfgs_enterPen (p : Pen) : (enterPen p s).cfgs = s.cfgs := by
  unfold enterPen
  extract_lets l wakes s1 s2
  have h1 : s1.cfgs = s.cfgs := by
    show State.cfgs (match p.leader with
      | none => s
      | some pf => match (s.seq pf).ra with
        | none => s
        | some ra => undoRunAhead pf ra s) = _
    split
    · rfl
    · split
      · rfl
      · simp
  have h2 : s2.cfgs = s1.cfgs := foldl_keeps _ State.cfgs _ _ fun t x => rfl
  refine ((cfgs_modPen _ _ _ ?_).trans h2).trans h1
  intro p
  rfl

@[simp] theorem cfgs_tickEntry (l : List Nat) : (tickEntry l s).cfgs = s.cfgs := by
  unfold tickEntry
  extract_lets s1
  refine (foldl_keeps s1 State.cfgs _ _ fun t x => ?_).trans (cfgs_mapPens _ _ fun p => rfl)
  split
  · exact cfgs_enterPen t x
  · exact cfgs_modPen _ _ _ fun p => rfl

@[simp] theorem cfgs_restoreRow (pf b slot a y : Nat) : (restoreRow pf b slot a y s).cfgs = s.cfgs := by
  have h : (bankRead b (64 * slot + y) false (portAccess b 2 0 (64 * slot + y) false portCycles s)).2.cfgs = s.cfgs := by simp
  unfold restoreRow
  split <;> rename_i e <;> rw [e] at h <;> simp_all

@[simp] theorem cfgs_sendRestores (pf b : Nat) (c : PenCfg) (n : Nat) : (sendRestores pf b c n s).cfgs = s.cfgs := by
  induction n generalizing s with
  | zero => rfl
  | succ n ih =>
    unfold sendRestores
    dsimp only
    split <;> simp [ih]

@[simp] theorem cfgs_restorePlane (pf : Nat) (c : PenCfg) (a : Nat) : (restorePlane pf c a s).cfgs = s.cfgs := by
  unfold restorePlane
  dsimp only
  split
  · simp
  · split
    · simp
    · split
      · simp
      · exact foldl_keeps s State.cfgs _ _ fun t y => cfgs_restoreRow t _ _ _ _ _

@[simp] theorem cfgs_restorePen (p : Pen) : (restorePen p s).cfgs = s.cfgs := by
  unfold restorePen
  refine (cfgs_modPen _ _ _ ?_).trans ?_
  · intro p
    rfl
  · exact foldl_keeps s State.cfgs _ _ fun t x => foldl_keeps t State.cfgs _ _ fun u y => cfgs_restorePlane u _ _ _

@[simp] theorem cfgs_tickRestore : (tickRestore s).cfgs = s.cfgs := by
  unfold tickRestore
  exact foldl_keeps s State.cfgs _ _ fun t x => by split <;> simp

@[simp] theorem cfgs_tickBlocks : (tickBlocks s).cfgs = s.cfgs := by
  unfold tickBlocks
  dsimp only
  refine (foldl_keeps _ State.cfgs _ _ fun t x => ?_).trans ?_
  · (repeat' split) <;> rfl
  · exact foldl_keeps s State.cfgs _ _ fun t x => rfl

@[simp] theorem cfgs_laneTick (l : Nat) : (laneTick l s).cfgs = s.cfgs := by
  unfold laneTick
  dsimp only
  (repeat' split) <;> rfl

@[simp] theorem cfgs_headSymbol (l : List Byte) : (headSymbol l s).cfgs = s.cfgs := by
  unfold headSymbol; split <;> rfl

@[simp] theorem cfgs_timeMessages : (timeMessages s).cfgs = s.cfgs := by
  unfold timeMessages
  exact foldl_keeps s State.cfgs _ _ fun t x => by split <;> rfl

/-! ### What closes a frame keeps the loader -/

@[simp] theorem ldr_emitCommand (c : EgCh) (x : EgCmd) : (emitCommand c x s).ldr = s.ldr := by
  cases c with
  | pins g =>
    unfold emitCommand emitPins drivePins
    dsimp only
    split
    · rfl
    · exact foldl_keeps (s.setReg .pgLast g 0 ((x.words.headD 0).setWidth 32)) State.ldr _ _ fun t p => by
        unfold drivePin
        split <;> rfl
  | lane l k =>
    show (emitLane l k x s).ldr = s.ldr
    unfold emitLane
    split <;> rfl

theorem ldr_setEgress (c : EgCh) (e : Egress) : (s.setEgress c e).ldr = s.ldr := by cases c <;> rfl

@[simp] theorem ldr_egressTick (c : EgCh) : (egressTick c s).ldr = s.ldr := by
  unfold egressTick
  dsimp only
  split
  · rfl
  · split
    · exact ldr_setEgress _ _ _
    · exact (ldr_emitCommand _ _ _).trans (ldr_setEgress _ _ _)

@[simp] theorem ldr_closeFrame : (closeFrame s).ldr = s.ldr := by
  unfold closeFrame
  dsimp only
  rw [foldl_keeps _ State.ldr _ _ fun t c => ldr_egressTick t c]
  show State.ldr (State.mapPens _ _) = _
  unfold State.mapPens
  dsimp only
  split <;> rfl

@[simp] theorem ldr_forgetFlight (p : Pkt) : (forgetFlight p s).ldr = s.ldr := by
  unfold forgetFlight
  (repeat' split) <;> rfl

@[simp] theorem ldr_shutOut (b : Nat) (p : Pkt) : (shutOut b p s).ldr = s.ldr := by
  unfold shutOut refuse sendError
  dsimp only
  split <;> simp

@[simp] theorem ldr_sealBank (b : Nat) : (sealBank b s).ldr = s.ldr := by
  unfold sealBank
  dsimp only
  rw [foldl_keeps _ State.ldr _ _ fun t c => ldr_shutOut t _ _]
  rfl

@[simp] theorem ldr_sealFold (pf : Nat) : (sealFold pf s).ldr = s.ldr := by
  unfold sealFold
  dsimp only
  split
  · rfl
  · split
    · rfl
    · unfold dropFold
      dsimp only
      (repeat' split) <;> rfl

@[simp] theorem ldr_sealEng (e : Nat) : (sealEng e s).ldr = s.ldr := by
  unfold sealEng
  split <;> rfl

@[simp] theorem ldr_sealAll : (sealAll s).ldr = s.ldr := by
  unfold sealAll
  refine (foldl_keeps _ State.ldr _ _ fun t c => ldr_sealEng t c).trans ?_
  refine (foldl_keeps _ State.ldr _ _ fun t c => ldr_sealBank t c).trans ?_
  exact foldl_keeps s State.ldr _ _ fun t c => ldr_sealFold t c

@[simp] theorem ldr_wipeDue : (wipeDue s).ldr = s.ldr := by
  have h : ∀ (r : Nat) (t : State), (failedRow r t).ldr = t.ldr := fun r t => foldl_keeps t State.ldr _ _ fun t i => rfl
  unfold wipeDue endWipe
  dsimp only
  (repeat' split) <;> simp [h]

@[simp] theorem ldr_tickEpoch : (tickEpoch s).ldr = s.ldr := by
  unfold tickEpoch
  dsimp only
  (repeat' split) <;> simp

@[simp] theorem ldr_lanesDue : (lanesDue s).2.ldr = s.ldr := by
  unfold lanesDue
  generalize (List.finRange 32).flatMap (fun l => (List.finRange 4).map (EgCh.lane l)) = l
  exact foldl_keeps { s with out := [] } State.ldr l _ fun t c => ldr_egressTick t c

@[simp] theorem ldr_laneTick (l : Nat) : (laneTick l s).ldr = s.ldr := by
  unfold laneTick rxLineErr
  dsimp only
  (repeat' split) <;> simp

@[simp] theorem ldr_dueTime : (dueTime s).ldr = s.ldr := by
  unfold dueTime headSymbol
  dsimp only
  (repeat' split) <;> simp

@[simp] theorem cfgs_lanesDue : (lanesDue s).2.cfgs = s.cfgs := by
  unfold lanesDue
  generalize (List.finRange 32).flatMap (fun l => (List.finRange 4).map (EgCh.lane l)) = l
  exact foldl_keeps { s with out := [] } State.cfgs l _ fun t c => cfgs_egressTick t c

@[simp] theorem cfgs_advanceTime (t : Nat) : (advanceTime t s).cfgs = s.cfgs := cfgs_of_arr (by simp)

@[simp] theorem cfgs_dueTime : (dueTime s).cfgs = s.cfgs := by
  unfold dueTime
  dsimp only
  (repeat' split) <;> simp

/-- The actions of a tick that activates nothing keep the pens' records (R24, R302). -/
theorem cfgs_tickActions (h : s.ldr.load = none) (g : s.ldr.act ≠ .pending) : (tickActions s).cfgs = s.cfgs := by
  unfold tickActions
  extract_lets late
  have c1 : (lanesDue (closeFrame s)).2.cfgs = s.cfgs := by simp
  have l1 : (lanesDue (closeFrame s)).2.ldr = s.ldr := by simp
  generalize lanesDue (closeFrame s) = e at c1 l1 ⊢
  obtain ⟨acts, s1⟩ := e
  dsimp only at c1 l1 ⊢
  have c2 : ((List.range 32).foldl (fun s l => laneTick l s) (tickEpoch s1)).cfgs = s.cfgs := by
    rw [foldl_keeps _ State.cfgs _ _ fun t x => cfgs_laneTick t x, cfgs_tickEpoch, c1]
  have l2 : ((List.range 32).foldl (fun s l => laneTick l s) (tickEpoch s1)).ldr = s.ldr := by
    rw [foldl_keeps _ State.ldr _ _ fun t x => ldr_laneTick t x, ldr_tickEpoch, l1]
  generalize (List.range 32).foldl (fun s l => laneTick l s) (tickEpoch s1) = s2 at c2 l2 ⊢
  rw [cfgs_tickActivate s2 (by rw [l2]; exact h) (by rw [l2]; exact g)]
  dsimp only
  have c3 : (tickParity (tickTables none (decideGroup none s2))).2.cfgs = s.cfgs := by
    rw [cfgs_tickParity, cfgs_tickTables, cfgs_decideGroup, c2]
  generalize tickParity (tickTables none (decideGroup none s2)) = e at c3 ⊢
  obtain ⟨hit, u⟩ := e
  dsimp only at c3 ⊢
  have c4 : (if u.hub.subst.isNone then serveWaiting u.hub.waiting u else u).cfgs = s.cfgs := by
    split
    · exact (cfgs_serveWaiting _ _).trans c3
    · exact c3
  generalize (if u.hub.subst.isNone then serveWaiting u.hub.waiting u else u) = w at c4 ⊢
  have c5 : (tickBlocks (tickRestore (tickEntry hit (tickPower [] (tickRejoin hit w))))).cfgs = s.cfgs := by
    rw [cfgs_tickBlocks, cfgs_tickRestore, cfgs_tickEntry, cfgs_tickPower, cfgs_tickRejoin, c4]
  generalize tickBlocks (tickRestore (tickEntry hit (tickPower [] (tickRejoin hit w)))) = x at c5 ⊢
  have c6 : ((List.range 8).foldl (fun s i => s.setReg .latemap i 0 (late.getD i 0)) x).cfgs = s.cfgs :=
    (foldl_keeps x State.cfgs _ _ fun t y => cfgs_setReg t _ _ _ _).trans c5
  generalize (List.range 8).foldl (fun s i => s.setReg .latemap i 0 (late.getD i 0)) x = y at c6 ⊢
  exact (cfgs_timeMessages _).trans c6

/-- A tick that activates nothing keeps the pens' records (R24, R302). -/
theorem cfgs_takeTick (h : s.ldr.load = none) (g : s.ldr.act ≠ .pending) : (takeTick s).cfgs = s.cfgs := by
  unfold takeTick frameTick
  rw [inOneCycle_field State.cfgs _ _ (fun a d t => cfgs_of_arr (by simp)) (fun _ _ => rfl) fun e => ?_]
  · simp
  · have hl : (sealAll (wipeDue (dueTime s))).ldr = s.ldr := by simp
    have hc : (sealAll (wipeDue (dueTime s))).cfgs = s.cfgs := by simp
    generalize sealAll (wipeDue (dueTime s)) = x at hl hc ⊢
    exact (cfgs_tickActions { x with evt := e } (hl ▸ h) (hl ▸ g)).trans rfl

end Sys2Proof.Machine
end

