-- ==== Sys2Proof/Tests/Slice0.lean ====
section
/-! SUPPORT. Tests of this model: ill-formed commands, steps with values of the spec, and for each statement a state in which its
hypotheses hold. -/

namespace Sys2Proof.Tests

-- The long kernel evaluations below run one after another.
set_option Elab.async false

open Sys2Proof.Machine Sys2Proof.Claims

/-! ### Ill-formed commands -/

/-- A packet of type 0, which no network has. -/
def noPkt : Pkt := {}

/-- A mailbox request of the service port with a short header. -/
def shortReq : MboxReq := { svc := true, hdr := [0], payload := [] }

theorem test_illformed_packets :
    [Instr.read noPkt false false, .write1 noPkt false false, .writeb noPkt false false, .addP noPkt false false,
      .addR noPkt false false, .swapP noPkt false false, .swapR noPkt false false, .regrd noPkt false, .regwr noPkt false,
      .ack noPkt, .rdata noPkt, .rdatab noPkt, .oldval noPkt, .regdata noPkt, .error noPkt 0, .inval noPkt, .cancel noPkt,
      .epochNotice noPkt 0].all (fun i => !i.wf) = true := by decide

theorem test_illformed_requests :
    [Instr.configBegin shortReq, .configChunk shortReq, .configEnd shortReq, .configStore shortReq, .configActivate shortReq,
      .commitArm shortReq, .commitDiscard shortReq, .identify shortReq, .updateOpen shortReq, .updateChunk shortReq,
      .updateStatus shortReq, .updateSchedule shortReq, .updateAbort shortReq, .settingsRead shortReq, .settingsWrite shortReq,
      .cairnRead shortReq, .presenceStatus shortReq, .lifecycleSet shortReq, .foldMap shortReq, .powerState shortReq,
      .probeSetup shortReq, .probeRead shortReq, .debugRead shortReq, .regRead shortReq, .regWrite shortReq,
      .unknownCmd { svc := false, hdr := [0], payload := [] }].all (fun i => !i.wf) = true := by decide

theorem test_illformed_bytes :
    [Instr.registerWrite 0 [], .bar2Write 0 [], .transmitDescriptor 0 [] [], .dmaH2p 0 [] [], .dmaP2h 0 [] 0, .dmaP2p 0 [],
      .dmaAddP 0 [], .dmaAddR 0 [] 0, .dmaSwapP 0 [], .dmaSwapR 0 [] 0, .dmaPlaneRd 0 [] 0].all (fun i => !i.wf) = true := by decide

theorem test_illformed_names :
    [Instr.guardBand [(0, 0), (0, 1)], .thermalSample [(0, 0), (0, 1)], .selftest { folds := [(0, 1), (0, 2)] },
      .selftest { engines := [(0, 1), (0, 2)] }, .selftest { lanes := [0, 0] }, .selftest { bridges := [0, 0] },
      .selftest { soft := [(0, 0, 256)] }].all (fun i => !i.wf) = true := by decide

/-! ### A pen that runs -/

/-- A pen of one fold. -/
def cfg1 : PenCfg := ⟨0, 1, 1, .fill, .fill, false, 2, 4, 0, 0x10, 0⟩

/-- The pen, entered and running. -/
def pen1 : Pen := { cfg := cfg1, leader := some 0, entered := true, run := true }

/-- A module in RUN at cycle 2,000 of a frame, its one fold with a given sequencer and PEs. -/
def running (q : Seq) (r : PeRegs := {}) : State :=
  { mode := .run, phase := .ready, frame := { ticked := true, cycle := 2000, time := 2000 },
    arr := { pens := [pen1], place := [(0, 1)], home := [(0, 1)],
             folds := [(0, { power := .on, role := .active, hurdle := .opened, seq := q, pe := r })] } }

theorem issues_running (k : Uk) (cond : Option (BitVec 2)) : Issues (running {}) 0 k cond ⟨pen1, 0, {}⟩ := by
  cases k <;> exact ⟨by rfl, nofun, by rfl, (Bool.and_eq_false_iff).2 (.inr (by rfl))⟩

theorem witness_BitopsAndMoves : ∃ s c, Issues s 0 (.read 5) none c ∧ Issues s 0 (.store 5) none c :=
  ⟨_, _, issues_running _ _, issues_running _ _⟩

theorem witness_FlagTable : ∃ s c, Issues s 0 (.flag (flagWritesX .x .w false) false) none c ∧
    Issues s 0 (.flag (flagWritesX .a .x true) false) none c ∧ swapSource .x = some .x ∧ Issues s 0 (.flag false true) none c :=
  ⟨_, _, issues_running _ _, issues_running _ _, rfl, issues_running _ _⟩

theorem witness_NeighDelivers : ∃ s c, Issues s 0 (.neigh .n) none c ∧ 0 ∈ c.pen.members ∧ 0 ∈ s.liveFolds c.pen ∧
    s.pfOf 0 = some 0 ∧ c.pen.cfg.count = 1 ∧ innerBit (s.fold 0).pe 0 .n 63 0 = none ∧ edgeBit .one = some true ∧
    innerBit (s.fold 0).pe 0 .s 0 62 = some false :=
  ⟨_, _, issues_running _ _, by decide, by decide +kernel, by decide +kernel, rfl, rfl, rfl, by decide +kernel⟩

/-- A pen of two folds side by side whose east and west edges have a mode. -/
def twinPen (m : EdgeMode) : Pen := { pen1 with cfg := { cfg1 with count := 2, width := 2, ew := m } }

/-- That pen runs, logical fold 1 on fold 1 with given PEs, LOST or not. -/
def twin (m : EdgeMode) (r : PeRegs) (lost : Bool) : State :=
  { running {} with arr := { (running {}).arr with
      pens := [twinPen m], place := [(0, 1), (1, 2)], home := [(0, 1), (1, 2)]
      folds := [(0, { power := .on, role := .active, hurdle := .opened }),
                (1, { power := .on, role := .active, hurdle := .opened, lf := 1, lost := lost, pe := r })] } }

/-- Across the seam of two folds, at a wrapped and at a skewed edge, and from a member that is LOST. -/
theorem witness_NeighDelivers_seam :
    (∀ (m : EdgeMode) (lost : Bool), Issues (twin m {} lost) 0 (.neigh .e) none ⟨twinPen m, 0, {}⟩) ∧
    (∀ (m : EdgeMode) (lost : Bool), 0 ∈ (twinPen m).members ∧ (twin m {} lost).pfOf 0 = some 0 ∧ 0 ∈ (twin m {} lost).liveFolds (twinPen m) ∧
      0 < (twinPen m).cfg.width ∧ (twinPen m).cfg.count % (twinPen m).cfg.width = 0) ∧
    (sourceBit (twin .fill { x := 1 } false) ⟨twinPen .fill, 0, {}⟩ .e .zero 0 0 63 0 = true ∧
      sourceBit (twin .fill { x := 1 } true) ⟨twinPen .fill, 0, {}⟩ .e .zero 0 0 63 0 = false) ∧
    sourceBit (twin .wrap { x := 1 <<< 63 } false) ⟨twinPen .wrap, 0, {}⟩ .w .wrap 0 0 0 0 = true ∧
    sourceBit (twin .skew { x := 1 <<< 63 } false) ⟨twinPen .skew, 0, {}⟩ .w .wrap 0 0 0 1 = true ∧
    sourceBit (twin .skew { x := 1 <<< 4095 } false) ⟨twinPen .skew, 0, {}⟩ .w .wrap 0 0 0 0 = true := by
  refine ⟨fun m lost => ?_, fun m lost => ?_, ?_⟩
  · exact ⟨by cases lost <;> rfl, nofun, by rfl, by rfl⟩
  · cases m <;> cases lost <;> decide +kernel
  · decide +kernel

theorem witness_ScalarsAndDspace : ∃ s c, Issues s 0 .seq (some 0) c ∧ Issues s 0 .ext (some 0) c ∧ Issues s 0 .held (some 0) c :=
  ⟨_, _, issues_running _ _, issues_running _ _, issues_running _ _⟩

theorem witness_IoRegisters : ∃ s c, Issues s 0 .io (some 0) c ∧ Issues s 0 .held (some 0) c ∧ Issues s 0 .ext (some 0) c ∧ condHolds 0 c.seq = true ∧
    (0x1B#5).toNat < 0x1C :=
  ⟨_, _, issues_running _ _, issues_running _ _, issues_running _ _, rfl, by decide⟩

/-- The same module with STKMODE = TRAP in its fold. -/
def trapping (q : Seq) : State := (running q).setReg .seqcfg 0 0 1

theorem witness_ControlFlow :
    (∃ s c, Issues s 0 .call (some 0) c ∧ Issues s 0 .ret (some 0) c ∧ Issues s 0 .drop (some 0) c ∧ Issues s 0 .ext (some 0) c ∧ Issues s 0 .br (some 0) c ∧
      Issues s 0 .nop (some 0) c ∧ Issues s 0 .rep none c ∧ condHolds 0 c.seq = true ∧ ¬ (c.seq.core.depth = 16)) ∧
    (∃ c, Issues (trapping { core := { depth := 16 } }) 0 .call (some 0) c ∧ c.seq.core.depth = 16 ∧
      stkTrap (trapping { core := { depth := 16 } }) c.pf = true) ∧
    ∃ c, Issues (trapping {}) 0 .ret (some 0) c ∧ Issues (trapping {}) 0 .drop (some 0) c ∧ c.seq.core.depth = 0 ∧
      stkTrap (trapping {}) c.pf = true :=
  ⟨⟨_, _, issues_running _ _, issues_running _ _, issues_running _ _, issues_running _ _, issues_running _ _, issues_running _ _,
      issues_running _ _, rfl, by decide⟩,
    ⟨⟨pen1, 0, { core := { depth := 16 } }⟩, ⟨by rfl, nofun, by rfl, by rfl⟩, rfl, by decide +kernel⟩,
    ⟨pen1, 0, {}⟩, ⟨by rfl, nofun, by rfl, by rfl⟩, ⟨by rfl, nofun, by rfl, by rfl⟩, rfl, by decide +kernel⟩

/-- A repeat in progress and a CTRL or EXT instruction behind its prefix, with a register of a GIN and without. -/
theorem witness_ControlFlow_repeats :
    (∃ c r, penIssue (running { rep := some ⟨0x20, 4096, 0, true, true, none⟩ }) 0 = some c ∧ c.seq.ra = none ∧ c.seq.rep = some r ∧
      c.seq.lat.illFired = false ∧ bit ((running { rep := some ⟨0x20, 4096, 0, true, true, none⟩ }).reg .illstat c.pf) 31 = false) ∧
    (∃ c, penIssue (running { rep := some ⟨0x3FFF, 1, 0, false, false, none⟩, lat := { illFired := true } }) 0 = some c ∧ c.seq.lat.illFired = true) ∧
    (∃ n, Unrepeatable 0 0 (.call 0 0 63 0x3FFF) n none) ∧ Unrepeatable 0 0 (.gin 0 0 7 0xFF) 2 (some 7) ∧ condHolds 0 {} = true ∧
    condHolds 1 {} = false :=
  ⟨⟨_, _, rfl, rfl, rfl, rfl, by decide +kernel⟩, ⟨_, rfl, rfl⟩, ⟨_, .call _ _⟩, .gin _ _, by decide, by decide⟩

/-- A repeat in progress behind which an instruction that may repeat issues, in a pen that runs and in one that a stop leaves the time. -/
theorem witness_repeats :
    (∃ c, Issues (running { rep := some ⟨0x20, 2, 0, false, false, none⟩ }) 0 (.read 5) none c) ∧
    ∃ c, Issues (running { rep := some ⟨0x20, 2, 0, false, false, some (2000, 2063)⟩ }) 0 (.read 5) none c := by
  refine ⟨⟨⟨pen1, 0, { rep := some ⟨0x20, 2, 0, false, false, none⟩ }⟩, rfl, ?_, rfl, rfl⟩,
    ⟨⟨pen1, 0, { rep := some ⟨0x20, 2, 0, false, false, some (2000, 2063)⟩ }⟩, rfl, ?_, rfl, rfl⟩⟩
  all_goals
    intro r hr
    obtain rfl := Option.some.inj hr
    decide +kernel

theorem witness_ReductionsAndStages :
    (∃ s c, Issues s 0 .mstr (some 0) c ∧ Issues s 0 .sys (some 0) c ∧ condHolds 0 c.seq = true ∧ c.seq.red.isNone = true ∧
      ¬ ∃ pf ∈ s.liveFolds c.pen, 0 < countPes s pf) ∧
    (∃ c, Issues (running {} { w := 1, a := 1 }) 0 .mstr (some 0) c ∧
      ∃ pf ∈ (running {} { w := 1, a := 1 }).liveFolds c.pen, 0 < countPes (running {} { w := 1, a := 1 }) pf) ∧
    ∃ c, Issues (running { red := some ⟨false, 1⟩ }) 0 .sys (some 0) c ∧ condHolds 0 c.seq = true ∧ c.seq.red.isNone = false ∧
      (running {}).rf .racfg 0 0 0 = 0 :=
  ⟨⟨_, _, issues_running _ _, issues_running _ _, rfl, rfl, by
      have : (running {}).liveFolds pen1 = [0] := by decide +kernel
      rw [this]; decide +kernel⟩,
    ⟨⟨pen1, 0, {}⟩, ⟨by rfl, nofun, by rfl, by rfl⟩, 0, by decide +kernel, by decide +kernel⟩,
    ⟨pen1, 0, { red := some ⟨false, 1⟩ }⟩, ⟨by rfl, nofun, by rfl, by rfl⟩, rfl, rfl, by decide +kernel⟩

/-- A snapshot of the one fold, with a prediction. -/
def ahead (p : Bool) : RunAhead := ⟨p, 0x40, 1, {}, [(0, ⟨1, 0, 0, 0, []⟩)]⟩

theorem witness_Resolution :
    (
      let s := running { red := some ⟨true, 9⟩ }
      s.penAt 0 = some pen1 ∧ pen1.leader = some 0 ∧ (s.seq 0).red = some ⟨true, 9⟩ ∧ (s.seq 0).ra = none) ∧
    (
      let s := running { red := some ⟨false, 1⟩, ra := some (ahead true) }
      s.penAt 0 = some pen1 ∧ (s.seq 0).red = some ⟨false, 1⟩ ∧ (s.seq 0).ra = some (ahead true)) ∧
    (
      let s := running { red := some ⟨false, 1⟩, ra := some (ahead false) }
      s.penAt 0 = some pen1 ∧ (s.seq 0).red = some ⟨false, 1⟩ ∧ (s.seq 0).ra = some (ahead false) ∧
      ((ahead false).folds.map (·.1)).Nodup) ∧
    let s := running { cancel := some 0x40 }
    s.penAt 0 = some pen1 ∧ (s.seq 0).cancel = some 0x40 := by
  decide +kernel

theorem witness_SequencerFaults :
    (∃ c, decodeArray 0 0x240 0 0 = .undef ⟨0, 1, none, false⟩ ∧ Issues (running {}) 0 .undef none c ∧ c.seq.lat.illFired = false ∧
      bit ((running {}).reg .illstat c.pf) 31 = false) ∧
    (∃ c, decodeArray 0 0xD00 0 0 = .undef ⟨2, 1, none, false⟩ ∧ Issues (running {}) 0 .undef none c) ∧
    (∃ c, decodeArray 0 0xC1C 0 0 = .undef ⟨2, 1, some (0, 0), false⟩ ∧ Issues (running {}) 0 .undef none c ∧ condHolds 0 c.seq = true) ∧
    (∃ c, decodeArray 0 0xE38 0x100 0 = .undef ⟨0, 2, some (0, 0), true⟩ ∧ Issues (running {}) 0 .undefCtl none c) ∧
    ((running {}).fold 0).power = .on ∧ ((running {}).fold 0).faultFired = false :=
  ⟨⟨_, by decide, issues_running _ _, rfl, by decide +kernel⟩, ⟨_, by decide, issues_running _ _⟩,
    ⟨_, by decide, issues_running _ _, rfl⟩, ⟨_, by decide, issues_running _ _⟩, by decide +kernel⟩

theorem witness_UnitInstructions : ∃ s c, Issues s 0 .held (some 0) c ∧ Issues s 0 .planeOut (some 0) c ∧ Issues s 0 (.planeIn 3) (some 0) c ∧
    Issues s 0 .histo (some 0) c ∧ condHolds 0 c.seq = true ∧ 0 ∈ s.liveFolds c.pen ∧ s.bankOf 0 = some 0 ∧
    c.pen.cfg.cbase ≤ (5#11).toNat ∧ (5#11).toNat < c.pen.cfg.cbase + c.pen.cfg.carried :=
  ⟨_, _, issues_running _ _, issues_running _ _, issues_running _ _, issues_running _ _, rfl, by decide +kernel, by decide +kernel,
    by decide, by decide⟩

/-- Every bank ON and open. -/
def openBanks : Store Bank := (List.range 272).map fun b => (b, { power := .on, hurdle := .opened })

/-- The running module with its banks open and one fold as given. -/
def withFold (f : Fold) : State :=
  { running {} with
    banks := openBanks
    arr := { (running {}).arr with folds := [(0, { f with power := .on, role := .active, hurdle := .opened })] } }

/-- The same with the planes of logical fold 0 in bank 1. -/
def farFold (f : Fold) : State := { withFold f with arr := { (withFold f).arr with home := [(0, 2)] } }

theorem witness_MoversAndTallyUnits :
    (
      let m : Move := ⟨true, 5, 0, 1023, 63, false, [], none, 0⟩
      let s := withFold { moves := [m] }
      (s.fold 0).moves = [m] ∧ s.bankShut 0 = false ∧ (s.bank 0).waiting = [] ∧ m.row ≤ 63 ∧
        ∀ y < 64, s.eccOf 0 (slotWord m.slot y) = .good) ∧
    (∀ out : Bool,
      let m : Move := ⟨out, 2047, 271, 1023, 0, false, [], none, 0⟩
      ((withFold { moves := [m] }).fold 0).moves = [m] ∧ freeTag (withFold { moves := [m] }) 0 16 = some 0 ∧
        rowCome (withFold { moves := [m] }) 0 m 0 = none) ∧
    (
      let m : Move := ⟨false, 2047, 271, 1023, 63, false, List.replicate 64 1, some 15, 0⟩
      ((withFold { moves := [m] }).fold 0).moves = [m] ∧ m.data.length = 64) ∧
    (∀ b ∈ [0, 271],
      let h : Histo := { bank := b, base := 0xFFFF, bins := [(1, 4096)] }
      let s := withFold { histo := some h }
      (s.fold 0).histo = some h ∧ h.left = 0 ∧ PortFree s 0 ∧ s.eccOf 0 ((h.base.toNat + 1) % 65536) = .good) ∧
    (∀ n ∈ [1, 6],
      let h : Histo := { bank := 0, base := 0xFFFF, mask := 1, first := 2047, planes := List.replicate n 0, left := 64 * n }
      let s := withFold { histo := some h }
      (s.fold 0).histo = some h ∧ Reads h h.first n ∧ PortFree s 0 ∧ ∀ v < 2 ^ n, s.eccOf 0 ((h.base.toNat + v) % 65536) = .good) ∧
    (
      let p : Pen := { pen1 with hints := [4, 5] }
      let s : State := { withFold { copied := [4] } with arr := { (withFold { copied := [4] }).arr with pens := [p] } }
      let u : State := { farFold { copied := [4] } with arr := { (farFold { copied := [4] }).arr with pens := [p] } }
      s.penOfFold 0 = some p ∧ (s.fold 0).power = .on ∧ s.frame.g832 = false ∧ runsAhead s 0 = false ∧
        p.hints.find? (fun x => !((s.fold 0).copied.contains x) && !(copySent s 0 p.cfg x)) = some 5 ∧
        s.bankOf (s.fold 0).lf = some 0 ∧ PortFree s 0 ∧
      u.penOfFold 0 = some p ∧ runsAhead u 0 = false ∧ p.hints.find? (fun x => !((u.fold 0).copied.contains x) && !(copySent u 0 p.cfg x)) = some 5 ∧
        u.bankOf (u.fold 0).lf = some 1 ∧ freeTag u 0 16 = some 0) := by
  unfold PortFree Reads
  decide +kernel

/-! ### Word engines -/

/-- A descriptor over local memory: operation, types, SUBOP and IMMSEL byte, COUNT, operands A, B, C and D at given offsets. -/
def localDesc (op types sub count : Nat) : List Byte :=
  leBytes 1 op ++ leBytes 1 types ++ leBytes 1 sub ++ [0] ++ leBytes 4 count ++ leBytes 4 0x80000000 ++ leBytes 4 0x80000100 ++
    leBytes 4 0x80000200 ++ leBytes 4 0x80000300 ++ leBytes 8 0

/-- An engine that is ON with one dispatch in its queue and another behind it. -/
def engineWith (bytes : List Byte) : State :=
  { running {} with
    eng := { units := [(3, { power := .on, hurdle := .opened,
                             queue := [⟨3, 0, 1, 7, false, bytes⟩, ⟨3, 0, 2, 8, false, localDesc 0 0x44 0 1⟩] })] } }

/-- The queue's head as `LocalHead` takes it. -/
theorem head_engineWith (bytes : List Byte) (d : Desc) (hd : parseDesc bytes = some d) (ht : d.ten = 0)
    (hl : (d.sources ++ d.dests).all (fun y => 2 ^ 31 ≤ y.1) = true)
    (ho : d.dests.all (fun y => d.sources.all fun z => !(overlaps y z)) = true) :
    LocalHead (engineWith bytes) 3 ⟨3, 0, 1, 7, false, bytes⟩ [⟨3, 0, 2, 8, false, localDesc 0 0x44 0 1⟩] d := by
  simp only [List.all_eq_true, decide_eq_true_eq, Bool.not_eq_true'] at hl ho
  exact ⟨rfl, hd, by decide +kernel, ht, hl, ho, fun _ _ => rfl⟩

theorem witness_DispatchAndPosting :
    (
      let x : Dispatch := ⟨3, 0, 1, 7, false, localDesc 1 0x44 0 1⟩
      let s : State := { engineWith (localDesc 1 0x44 0 4) with arr := { (running {}).arr with flight := [x] } }
      s.arr.flight.find? (·.engine == 3) = some x ∧ x.mr < 4 ∧ x.pf < 272 ∧ s.cutAt x.pf (engineNode 3) = none ∧
      (s.engine 3).power = .on ∧ (s.engine 3).hurdle = .opened ∧ (s.engine 3).queue.length < 8 ∧ (parseDesc x.bytes).isSome ∧
      (∀ y ∈ (s.engine 3).queue, (parseDesc y.bytes).isSome) ∧ ∀ y ∈ s.queue (engineNode 3) .req 4, y.stays = false) ∧
    (
      let x : Dispatch := ⟨3, 0, 1, 7, false, localDesc 1 0x44 0 1⟩
      let s : State := { running {} with
        arr := { (running {}).arr with flight := [x] }
        eng := { units := [(3, { power := .on, hurdle := .opened, queue := List.replicate 8 x })] } }
      s.arr.flight.find? (·.engine == 3) = some x ∧ (s.engine 3).hurdle = .opened ∧ 8 ≤ (s.engine 3).queue.length) ∧
    (
      let x : Post := ⟨3, 0, 1, 7, false, 5⟩
      let s : State := { running { mrOwner := #v[0, 7, 0, 0] } with eng := { posts := [x] } }
      s.eng.posts.find? (·.pf == 0) = some x ∧ x.mr < 4 ∧ s.cutAt (engineNode x.engine) 0 = none ∧
      (s.fold 0).hurdle = .opened ∧ (∀ y ∈ s.queue 0 .rsp 4, y.stays = false) ∧ x.fep = bit s.frame.epoch 0 ∧ (s.seq 0).mrOwner[x.mr]! = x.id) ∧
    let x : Post := ⟨3, 0, 1, 7, true, 5⟩
    let s : State := { running {} with eng := { posts := [x] } }
    s.eng.posts.find? (·.pf == 0) = some x ∧ x.fep ≠ bit s.frame.epoch 0 := by decide +kernel

/-- What the element-wise operations take: a descriptor of each, int32 where the operation has integers, binary32 where not. -/
theorem witness_EngineElements : ∀ x ∈ [(0, 0x44, 0), (1, 0x44, 0), (1, 0x11, 0), (2, 0x44, 0), (3, 0x44, 0), (4, 0x11, 0),
    (5, 0x44, 0), (5, 0x44, 8), (5, 0x44, 4), (6, 0x11, 0), (7, 0x44, 0), (8, 0x44, 0), (9, 0x44, 0), (0xA, 0x11, 0), (0xB, 0x84, 0),
    (0xB, 0x01, 0), (0xB, 0x41, 0), (0xB, 0x14, 0), (0xC, 0x44, 0), (0xC, 0x44, 4), (0xC, 0x41, 8), (0xC, 0x41, 12), (0xD, 0x11, 0)],
    ∃ d, LocalHead (engineWith (localDesc x.1 x.2.1 x.2.2 4)) 3 ⟨3, 0, 1, 7, false, localDesc x.1 x.2.1 x.2.2 4⟩
      [⟨3, 0, 2, 8, false, localDesc 0 0x44 0 1⟩] d ∧ d.op = x.1 ∧ d.subop = x.2.2 / 4 ∧ d.count = 4 := by
  intro x hx
  have h : ((parseDesc (localDesc x.1 x.2.1 x.2.2 4)).any fun d => d.ten = 0 && (d.sources ++ d.dests).all (fun y => 2 ^ 31 ≤ y.1) &&
      d.dests.all (fun y => d.sources.all fun z => !(overlaps y z)) && d.op = x.1 && d.subop = x.2.2 / 4 && d.count = 4) = true := by
    revert x; decide +kernel
  cases hd : parseDesc (localDesc x.1 x.2.1 x.2.2 4) with
  | none => rw [hd] at h; cases h
  | some d =>
    rw [hd] at h
    simp only [Option.any_some, Bool.and_eq_true, decide_eq_true_eq] at h
    exact ⟨d, head_engineWith _ _ hd h.1.1.1.1.1 h.1.1.1.1.2 h.1.1.1.2, h.1.1.2, h.1.2, h.2⟩

theorem witness_EngineReductions : ∀ x ∈ [(0xE, 0x44, 0), (0xE, 0x44, 4), (0xE, 0x44, 8), (0xE, 0x11, 0), (0xE, 0x11, 4), (0xE, 0x11, 8), (0xF, 0x11, 0)],
    ∃ d, LocalHead (engineWith (localDesc x.1 x.2.1 x.2.2 4)) 3 ⟨3, 0, 1, 7, false, localDesc x.1 x.2.1 x.2.2 4⟩
      [⟨3, 0, 2, 8, false, localDesc 0 0x44 0 1⟩] d ∧ d.op = x.1 ∧ d.subop = x.2.2 / 4 ∧ d.count = 4 := by
  intro x hx
  have h : ((parseDesc (localDesc x.1 x.2.1 x.2.2 4)).any fun d => d.ten = 0 && (d.sources ++ d.dests).all (fun y => 2 ^ 31 ≤ y.1) &&
      d.dests.all (fun y => d.sources.all fun z => !(overlaps y z)) && d.op = x.1 && d.subop = x.2.2 / 4 && d.count = 4) = true := by
    revert x; decide +kernel
  cases hd : parseDesc (localDesc x.1 x.2.1 x.2.2 4) with
  | none => rw [hd] at h; cases h
  | some d =>
    rw [hd] at h
    simp only [Option.any_some, Bool.and_eq_true, decide_eq_true_eq] at h
    exact ⟨d, head_engineWith _ _ hd h.1.1.1.1.1 h.1.1.1.1.2 h.1.1.1.2, h.1.1.2, h.1.2, h.2⟩

/-- Normal operands whose sum, product and fused product are the least and the greatest normal numbers of binary32, and of binary64. -/
theorem witness_EngineReductions_ranges :
    (∀ x ∈ [0x01000000, 0x80800000, 0x00800000, 0x7F7FFFFF, 0x7F7FFFFE, 0x73800000, 0x3F800000], Normal binary32 x) ∧
    (∀ x ∈ [0x0020000000000000, 0x8010000000000000, 0x7FEFFFFFFFFFFFFF, 0x3FF0000000000000], Normal binary64 x) ∧
    (¬ Normal binary32 0x007FFFFF ∧ ¬ Normal binary32 0x7F800000) ∧
    InNormalRange binary32 1 (units binary32 0x01000000 + units binary32 0x80800000) ∧
    units binary32 0x01000000 + units binary32 0x80800000 = units binary32 0x00800000 ∧
    InNormalRange binary32 1 (units binary32 0x7F7FFFFE + units binary32 0x73800000) ∧
    units binary32 0x7F7FFFFE + units binary32 0x73800000 = units binary32 0x7F7FFFFF ∧
    InNormalRange binary32 (oneUnits binary32) (units binary32 0x3F800000 * units binary32 0x7F7FFFFF) ∧
    InNormalRange binary32 (oneUnits binary32)
      (units binary32 0x3F800000 * units binary32 0x01000000 + units binary32 0x80800000 * oneUnits binary32) ∧
    InNormalRange binary64 1 (units binary64 0x0020000000000000 + units binary64 0x8010000000000000) ∧
    InNormalRange binary64 (oneUnits binary64) (units binary64 0x3FF0000000000000 * units binary64 0x7FEFFFFFFFFFFFFF) ∧
    InNormalRange binary64 (oneUnits binary64)
      (units binary64 0x3FF0000000000000 * units binary64 0x0020000000000000 + units binary64 0x8010000000000000 * oneUnits binary64) := by
  unfold Claims.Normal InNormalRange
  decide +kernel

/-! ### The frame -/

/-- The running module with a tick requested at cycle P, a configuration in force with one stage. -/
def atP : State :=
  { running {} with
    frame := { ticked := true, cycle := 1000000, time := 1000000, held := true }
    regs := (({} : State).setRf .bootstat 0 25 25 1).regs
    ldr := { inForce := some { stages := [⟨2000, 900000, 1, 1, [(0, 0x20)]⟩], reloc := [(0, none)] } }
    hub := { supply := .onA, wantRun := true, fuses := { lc := 1 } } }

theorem witness_IdleCycle : (running {}).pending = [] ∧ (running {}).hub.supply = .off ∧ atP.pending = [] ∧ atP.hub.supply ≠ .off := by
  decide +kernel

theorem witness_TickOpensFrame : (running {}).tickDue = true ∧ atP.tickDue = true ∧ atP.hub.fw.st ≠ .scheduled ∧
    State.reset.tickDue = false ∧ atP.hub.wipe = none ∧ (∀ b < 272, ({ atP with banks := openBanks }.bank b).power ≠ .off ∧
      ({ atP with banks := openBanks }.bank b).hurdle ≠ .closing) := by decide +kernel

/-- Nothing waits at a bank where nothing waits at those listed, and no fold has a move where none listed has one. -/
theorem banksQuiet_of {s : State} (hb : ∀ x ∈ s.banks, x.2.waiting = []) (hf : ∀ x ∈ s.arr.folds, x.2.moves = []) : BanksQuiet s := by
  intro b
  refine ⟨Store.get_all (P := fun x : Bank => x.waiting = []) rfl hb b, ?_⟩
  unfold ownMove ownRows State.fold
  rw [Store.get_all (P := fun x : Fold => x.moves = []) rfl hf b]
  rfl

theorem witness_TickOpensFrame_quiet : BanksQuiet { atP with banks := openBanks } :=
  banksQuiet_of (by decide +kernel) (by decide +kernel)

/-- The same with every bank ON and open and every engine ON. -/
def atQ : State :=
  { atP with
    banks := openBanks
    eng := { units := (List.range 32).map fun e => (e, { power := .on, hurdle := .opened }) } }

theorem witness_TickEntersPens : atQ.tickDue = true ∧ atQ.hub.fw.st ≠ .scheduled ∧ (∀ pf, (atQ.seq pf).ra = none) ∧
    exec .tick atQ = .next (tickOp atQ) ∧ PensApart (tickOp atQ) ∧
    ∃ p ∈ (tickOp atQ).arr.pens, p.entered = true ∧ (tickOp atQ).liveFolds p = [0] := by
  have h : (tickOp atQ).arr.pens.map (fun p => (p.entered, (tickOp atQ).liveFolds p)) = [(true, [0])] := by decide +kernel
  refine ⟨by decide +kernel, by decide +kernel, ?_, rfl, ?_⟩
  · intro pf
    by_cases h : pf = 0
    · subst h; rfl
    · unfold State.seq State.fold
      rw [show atQ.arr.folds = [(0, { power := .on, role := .active, hurdle := .opened })] from rfl]
      unfold Store.get
      rw [if_neg (Ne.symm h)]
      rfl
  · generalize tickOp atQ = t at h ⊢
    obtain ⟨p, hp⟩ : ∃ p, t.arr.pens = [p] := List.length_eq_one_iff.mp (by simpa using congrArg List.length h)
    rw [hp] at h
    simp only [List.map_cons, List.map_nil, List.cons.injEq, Prod.mk.injEq, and_true] at h
    refine ⟨?_, p, by simp [hp], h⟩
    intro a ha b hb hab
    simp only [hp, List.mem_singleton] at ha hb
    exact absurd (ha.trans hb.symm) hab

/-- A tick leaves the pen the leader of R65, and none where its one fold cannot lead. -/
theorem witness_TickOpensFrame_leaders :
    (tickOp atQ).arr.pens.map (·.leader) = [some 0] ∧
    (let s : State := { atQ with arr := { atQ.arr with folds := [(0, { power := .on, role := .active, hurdle := .opened, lost := true })] } }
     s.tickDue = true ∧ s.hub.fw.st ≠ .scheduled ∧ (tickOp s).arr.pens.map (·.leader) = [none]) := by decide +kernel

/-- A state with one pen keeps its pens apart. -/
theorem pensApart_one {t : State} {p : Pen} (h : t.arr.pens = [p]) : PensApart t := by
  intro a ha b hb hab
  rw [h, List.mem_singleton] at ha hb
  exact absurd (ha.trans hb.symm) hab

/-- A state with one pen, whose leader is fold 0, a member. -/
theorem leadersIn_one {t : State} {p : Pen} (h : t.arr.pens = [p]) (hl : p.leader = some 0) (hm : 0 ∈ t.memberFolds p) :
    LeadersIn t := by
  intro a ha pf hpf
  rw [h, List.mem_singleton] at ha
  subst ha
  rw [hl] at hpf
  cases hpf
  exact hm

/-- The running module of one stage at a cycle, with its pen and its frame as given. -/
def mid (p : Pen := pen1) (f : Frame := { ticked := true, cycle := 2000, time := 2000 }) : State :=
  { atP with arr := { atP.arr with pens := [p] }, frame := f }

theorem witness_TickSourcesAndSync :
    (
      let s := { mid with edge := { netEdges := 1 } }
      0 < s.edge.netEdges + (tickNet s && !s.edge.net && s.rf .tickcfg 0 2 0 == 1).toNat ∧
      (mid).edge.netEdges + (tickNet { mid with edge := { tickIn := true } } && !(mid).edge.net && (mid).rf .tickcfg 0 2 0 == 1).toNat = 0) ∧
    (
      let s := (mid.setReg .laneCfg 0 0 0xC0000000).setReg .ltnextLo 0 0
      2 ^ 95 ≤ (addr64 ((s 0).reg .ltnextLo) ((s 0).reg .ltnextHi) * 2 ^ 32 + 2 ^ 96 - ptpNow (s 0) 0) % 2 ^ 96 ∧
      (addr64 ((s 9000).reg .ltnextLo) ((s 9000).reg .ltnextHi) * 2 ^ 32 + 2 ^ 96 - ptpNow (s 9000) 0) % 2 ^ 96 < 2 ^ 95 ∧
      0 < ptpRate (s 9000) 0) ∧
    (
      let s := { mid with regs := ((mid.setReg .tickcfg 0 0 2).setReg .laneCfg 0 0 0xC0000000).regs }
      s.rf .tickcfg 0 2 0 = 2 ∧ s.etherLane (s.rf .tickcfg 0 12 8) = true) ∧
    (
      let s := mid.setReg .tickcfg 0 0 3
      s.ticks = true ∧ s.tickDue = false ∧ s.frame.hold = false) ∧
    (
      let s := mid pen1 { ticked := true, cycle := 1000000, time := 1000000, hold := true }
      s.ticks = true ∧ s.frame.held = false ∧ s.frame.hold = true ∧ s.frame.missed = false) ∧
    crc8 (leBytes 6 (5 : BitVec 48).toNat) = (BitVec.ofNat 8 (crc8 (leBytes 6 5)) : Byte).toNat ∧
    crc8 (leBytes 6 (5 : BitVec 48).toNat) ≠ (BitVec.ofNat 8 (crc8 (leBytes 6 4)) : Byte).toNat := by decide +kernel

theorem witness_Stages :
    (∃ st, (mid).stages[0]? = some st ∧ (mid).ticks = true ∧ (mid).frame.hold = false ∧ (st.parts.map (·.1)).Nodup ∧
      PensApart mid ∧ LeadersIn mid ∧ (0, 0x20) ∈ st.parts ∧ (mid).penAt 0 = some pen1 ∧ pen1.entered = true ∧
      pen1.stopped = false ∧ pen1.yielded.contains 0 = false) ∧
    (mid { pen1 with yielded := [0] }).penAt 0 = some { pen1 with yielded := [0] } ∧
    (
      let s : State := { mid with arr := (running { red := some ⟨false, 1⟩, ra := some (ahead true) }).arr }
      s.penAt 0 = some pen1 ∧ (s.seq 0).ra = some (ahead true)) :=
  ⟨⟨⟨2000, 900000, 1, 1, [(0, 0x20)]⟩, rfl, by decide +kernel, rfl, by decide, pensApart_one rfl,
    leadersIn_one (p := pen1) rfl rfl (by decide +kernel), by decide, by decide +kernel, rfl, rfl, rfl⟩, by decide +kernel,
    by decide +kernel⟩

/-- The module at the end of its stage, its banks open, its pen on time with some planes copied. -/
def onTime (copied hints : List Nat) : State :=
  { mid { pen1 with yielded := [0], hints := hints } with
    banks := openBanks
    arr := { (mid { pen1 with yielded := [0], hints := hints }).arr with
             folds := [(0, { power := .on, role := .active, hurdle := .opened, copied := copied })] } }

theorem witness_GuardBand :
    (mid).ticks = true ∧ (mid).frame.guardDone = false ∧ (mid).frame.g832 = false ∧ (mid).frame.g960 = false ∧
    (
      let s := onTime [] [4]
      let p : Pen := { pen1 with yielded := [0], hints := [4] }
      p ∈ s.arr.pens ∧ p.entered = true ∧ s.penOnTime p = true ∧ (p.cfg.planes.filter fun a => !(p.hints.contains a)).length ≤ 12 ∧
      0 ∈ s.liveFolds p ∧ s.bankOf (s.fold 0).lf = some 0 ∧ s.bankShut 0 = false ∧ 5 ∈ p.cfg.planes ∧ 5 ∉ p.hints) ∧
    PensApart (onTime [4, 5] []) ∧
    (
      let s := onTime [4, 5] []
      let p : Pen := { pen1 with yielded := [0] }
      p ∈ s.arr.pens ∧ s.penOnTime p = true ∧ ∀ pf ∈ s.memberFolds p, ∀ a ∈ p.cfg.planes, a ∈ (s.fold pf).copied) ∧
    (
      let s := onTime [4] []
      let p : Pen := { pen1 with yielded := [0] }
      s.penOnTime p = true ∧ ¬ ∀ pf ∈ s.memberFolds p, ∀ a ∈ p.cfg.planes, a ∈ (s.fold pf).copied) ∧
    (∀ pf, ownMove (onTime [] [4]) pf = false) ∧
    (
      let x : Queued := { pkt := { net := .req, type := 1, tep := true }, inp := 0, since := 0 }
      let y : Queued := { x with sent := 1 }
      let s : State := { mid with dw := { drain := true, queues := [(queueKey 0 .req 3, [x]), (queueKey 287 .req 6, [y])] } }
      s.dw.drain = true ∧ Store.wf s.dw.queues [] = true ∧ s.queue 0 .req 3 = [x] ∧ x.pkt.tep ≠ s.dw.tep ∧
      ∀ z ∈ s.queue 287 .req 6, 0 < z.sent) :=
  ⟨by decide +kernel, rfl, rfl, rfl, by decide +kernel, pensApart_one rfl, by decide +kernel, by decide +kernel,
    fun pf => (banksQuiet_of (s := onTime [] [4]) (by decide +kernel) (by decide +kernel) pf).2, by decide +kernel⟩

/-- The module with its one fold on its way to ON. -/
def waking (p : Pen) : State :=
  { mid p with arr := { (mid p).arr with folds := [(0, { power := .waking, role := .active })] } }

theorem witness_HeartbeatsAndWakes :
    ((mid).fold 0).power = .on ∧ (mid).frame.ticked = true ∧ (mid).frame.hold = false ∧ ((mid).fold 0).beat = false ∧
    ((mid).fold 0).faultFired = false ∧
    (
      let n : Pen := { pen1 with restoreOwed := true, notBefore := 1000 }
      (waking n).penAt 0 = some n ∧ (∃ pf ∈ (waking n).memberFolds n, ((waking n).fold pf).power = .waking) ∧ n.entered = true) ∧
    (({ mid with banks := [(3, { power := .waking, opensAt := 2048 })] } : State).bank 3).power = .waking ∧
    (({ mid with eng := { units := [(3, { power := .waking, opensAt := 1000 })] } } : State).engine 3).power = .waking := by
  decide +kernel

theorem witness_HeartbeatsAndWakes_quiet : BanksQuiet (waking { pen1 with restoreOwed := true, notBefore := 1000 }) :=
  banksQuiet_of (by decide +kernel) (by decide +kernel)

/-- The module with pin group 0 set up, its pen and the group's queue as given. -/
def withGroup (cfg : Word) (p : Pen) (e : Egress) : State :=
  { onTime [] [] with
    regs := (mid.setReg .pgCfg 0 0 cfg).regs
    arr := { (onTime [] []).arr with pens := [p] }
    edge := { groups := [(0, e)] } }

theorem witness_EgressLatches :
    (
      let p : Pen := { pen1 with yielded := [0] }
      let s := withGroup 0x80000000 p {}
      s.ldr.inForce.isSome = true ∧ s.frame.ticked = true ∧ s.frame.hold = false ∧ s.edge.halted = false ∧
      bit (s.regR (egCfgReg (.pins 0))) 31 = true ∧ (s.egress (.pins 0)).latched = false ∧ s.egLoading (.pins 0) = false ∧
      s.penAt (fld (s.regR (egCfgReg (.pins 0))) 7 0) = some p ∧ s.penHeld p = false ∧ s.penOnTime p = true ∧
      s.frame.cycle + 4 ≤ s.latchCycle 0 ∧ egressBank s (commandWords s (.pins 0)).1 = some 0 ∧
      (∀ i < (commandWords s (.pins 0)).2.2, s.eccOf 0 ((commandWords s (.pins 0)).2.1 + i) = .good) ∧
      (ownWords (.pins 0) (advanceTo (s.latchCycle 0) s)).1 = some [0]) ∧
    (
      let p : Pen := { pen1 with recorded := .retain }
      let s := withGroup 0x80000000 p {}
      s.penAt 0 = some p ∧ s.penHeld p = true ∧ s.replacing 0 = false) ∧
    (
      let s := withGroup 0x80400000 pen1 { held := some [7], run := 0 }
      let w := s.regR (egCfgReg (.pins 0))
      s.penAt 0 = some pen1 ∧ s.penHeld pen1 = false ∧ s.penOnTime pen1 = false ∧ fld w 30 29 = 0 ∧
      (s.egress (.pins 0)).held = some [7] ∧ (s.egress (.pins 0)).run + 1 < fld w 28 21) ∧
    (
      let s := withGroup 0x80400000 pen1 { held := some [7], run := 1 }
      let w := s.regR (egCfgReg (.pins 0))
      s.penOnTime pen1 = false ∧ fld w 30 29 = 0 ∧ fld w 28 21 ≤ (s.egress (.pins 0)).run + 1 ∧ 
      (safeWords (.pins 0) (advanceTo (s.latchCycle 0) s)).1 = some [0]) ∧
    (
      let s := withGroup 0xA0000000 pen1 {}
      s.penOnTime pen1 = false ∧ fld (s.regR (egCfgReg (.pins 0))) 30 29 = 1) ∧
    (
      let s := withGroup 0xC0000000 pen1 {}
      s.penOnTime pen1 = false ∧ 2 ≤ fld (s.regR (egCfgReg (.pins 0))) 30 29) := by decide +kernel

theorem witness_Emissions :
    (
      let x : EgCmd := ⟨0, 990000, 1, [5], 0, 9, false, 0⟩
      let s : State := { (mid.setReg .pgCfg 0 0 0x80001000).setReg .pinOut 3 0 0x4002 with edge := { groups := [(0, { queue := [x] })] } }
      dueCommand (s.egress (.pins 0)).queue = some x ∧ bit (s.reg .pgCfg 0) 31 = true ∧ bit (s.reg .pgCfg 0) 12 = true ∧
      fld (s.reg .pinOut 3) 15 14 = 1 ∧ fld (s.reg .pinOut 3) 11 8 = 0 ∧ (5 : Dword).getLsbD (fld (s.reg .pinOut 3) 5 0) = true) ∧
    (
      let x : EgCmd := ⟨0, 990000, 1, [5], 0, 9, false, 0⟩
      let s : State := { (mid.setReg .laneCfg 0 0 0x80000000).setReg .egCfg 0 1 0x80000000 with
        lanes := [(0, { eg := [(1, { queue := [x] })] })] }
      dueCommand (s.egress (.lane 0 1)).queue = some x ∧ s.linkLane 0 = true) ∧
    Store.get ({ mid with edge := { timers := [(191, some 5000)] } } : State).edge.timers none 191 = some 5000 := by decide +kernel

theorem witness_PinsAndEncoders :
    (mid).pinDrive 0 = .off 1 ∧ ((mid.setReg .pinOut 0 0 0x4000).setReg .pinCfg 0 0 1).pinDrive 0 = .drive false ∧
    (mid).pending = [] ∧ (mid).hub.supply ≠ .off ∧
    (∀ n ∈ [0, 2, 3],
      let s : State := { mid.setReg .encCfg 3 0 0x80000001 with edge := { encs := [(3, { a := true, na := n })] } }
      bit (s.reg .encCfg 3) 31 = true ∧ s.segment 0 (224 + s.rf .encCfg 3 27 23) ≠ ((s.enc 3).seen.getLastD ((s.enc 3).a, (s.enc 3).b)).1 ∧
      s.segment 0 (224 + s.rf .encCfg 3 22 18) = ((s.enc 3).seen.getLastD ((s.enc 3).a, (s.enc 3).b)).2 ∧ (s.enc 3).na = n) ∧
    (∀ d ∈ [0, 1], ∀ a : Bool, ∀ b : Bool,
      let s : State := { mid.setReg .encCfg 3 0 0x80000001 with edge := { encs := [(3, { seen := [(a, b)], debt := d })] } }
      bit (s.reg .encCfg 3) 31 = true ∧ fld (s.reg .encCfg 3) 30 29 = 0 ∧ (s.enc 3).seen = [(a, b)] ∧ (s.enc 3).debt = d ∧
      s.rf .encCfg 3 15 0 ≤ (s.enc 3).rem + 1) ∧
    (let s := mid.setReg .encCfg 0 0 0x80000003
     (s.enc 0).rem + 1 < s.rf .encCfg 0 15 0 ∧ (s.enc 0).debt = 0 ∧ bit (mid.reg .encCfg 0) 31 = false) ∧
    bit (mid.reg .clkstat) 2 = false ∧ fld ((mid.setReg .clkstat 0 0 1).reg .clkstat) 1 0 ≠ 0 := by decide +kernel

/-! ### The droveway and the banks -/

/-- The running module with its banks open and a word of bank 2 with a code of some kind. -/
def banked (e : Ecc := .good) (w : Nat := 65535) : State := { mid with banks := openBanks, ecc := [(65536 * 2 + w, e)] }

/-- A request from node 5 for bank 2. -/
def askPkt (net : Net) (type : BitVec 5) (payload : List Dword := []) (len : BitVec 6 := 0) (word : BitVec 16 := 65535) : Pkt :=
  { net := net, type := type, dst := 2, src := 5, tag := 7, fepv := true, len := len, bmask := 0xFF, word := word
    body := { ackreq := true, payload := payload } }

theorem witness_BankReadsAndWrites :
    (AtBank banked (askPkt .req 1) .req 1 2 ∧ oldEpoch banked (askPkt .req 1) = false ∧
      ∀ k ≤ (0 : Nat), banked.eccOf 2 (65535 + k) ≠ .double) ∧
    (AtBank banked (askPkt .req 1 [] 63 65472) .req 1 2 ∧ ∀ k ≤ (63 : Nat), banked.eccOf 2 (65472 + k) ≠ .double) ∧
    (AtBank (banked .double) (askPkt .req 1) .req 1 2 ∧ ∃ k ≤ (0 : Nat), (banked .double).eccOf 2 (65535 + k) = .double) ∧
    AtBank banked (askPkt .req 2 [9]) .req 2 2 ∧
    (AtBank (banked .double) { askPkt .req 2 [9] with bmask := 1 } .req 2 2 ∧ (banked .double).eccOf 2 65535 = .double) ∧
    (let p := askPkt .data 0x11 [1, 2] 1 65534
     AtBank banked p .data 0x11 2 ∧ p.body.payload.length = p.len.toNat + 1 ∧ 65534 + p.len.toNat < 65536) ∧
    (mid).bankShut 271 = true := by
  refine ⟨⟨?_, by decide +kernel, by decide +kernel⟩, ⟨?_, by decide +kernel⟩, ⟨?_, 0, by decide, by decide +kernel⟩, ?_,
    ⟨?_, by decide +kernel⟩, ⟨?_, by decide, by decide⟩, by decide +kernel⟩ <;>
  exact ⟨rfl, rfl, rfl, by decide, by unfold PortFree; decide +kernel, by decide +kernel, by unfold NotQueued; decide +kernel⟩

theorem witness_WordWriteOverError : (65535 : Nat) < 65536 ∧ (banked .double).eccOf 2 65535 = .double ∧
    AtBank (banked .double) (askPkt .req 2 [9]) .req 2 2 ∧ (askPkt .req 2 [9]).bmask = 0xFF ∧
    AtBank (banked .double) (askPkt .data 0x11 [9]) .data 0x11 2 ∧ (banked .double).bankShut 2 = false := by
  refine ⟨by decide, by decide +kernel, ?_, rfl, ?_, by decide +kernel⟩ <;>
  exact ⟨rfl, rfl, rfl, by decide, by unfold PortFree; decide +kernel, by decide +kernel, by unfold NotQueued; decide +kernel⟩

theorem witness_BankAtomics :
    (∀ type ∈ [(3 : BitVec 5), 4, 5, 6], AtBank banked (askPkt .req type [9]) .req type 2) ∧
    AtBank (banked .double) (askPkt .req 4 [9]) .req 4 2 ∧ (banked .double).eccOf 2 65535 = .double := by
  refine ⟨?_, ?_, by decide +kernel⟩
  · intro type h
    exact ⟨rfl, rfl, rfl, by decide, by unfold PortFree; decide +kernel, by decide +kernel, fun x hx => by cases hx⟩
  · exact ⟨rfl, rfl, rfl, by decide, by unfold PortFree; decide +kernel, by decide +kernel, by unfold NotQueued; decide +kernel⟩

/-- A response of a type to fold 0, in the epoch given. -/
def answerPkt (net : Net) (type : BitVec 5) (fep : Bool) (dst : BitVec 9 := 0) : Pkt :=
  { net := net, type := type, dst := dst, src := 5, tag := 7, fepv := true, fep := fep, body := { mask := 15, payload := [1] } }

theorem witness_Responses :
    (∀ x ∈ [(Net.rsp, (1 : BitVec 5)), (.rsp, 2), (.data, 0x12), (.rsp, 3), (.rsp, 5)],
      let p := answerPkt x.1 x.2 false
      let q := answerPkt x.1 x.2 true
      takesResponse p.dst.toNat p mid = true ∧ oldEpoch mid p = false ∧ takesResponse q.dst.toNat q mid = true ∧ oldEpoch mid q = true ∧
        let r := answerPkt x.1 x.2 false 271
        takesResponse r.dst.toNat r mid = false ∧ r.dst.toNat < 288) ∧
    (∀ out : Bool,
      let m : Move := ⟨out, 2047, 5, 1023, 0, false, [], some 7, 0⟩
      let s : State := { withFold { moves := [m] } with dw := { tags := [(7, some ⟨askPkt .req 1, false, none, false⟩)] } }
      let p := if out then answerPkt .rsp 1 false else answerPkt .data 0x12 false
      (s.fold 0).hurdle = .opened ∧ oldEpoch s p = false ∧ s.tag p.tag = some ⟨askPkt .req 1, false, none, false⟩ ∧ (s.fold 0).moves = [m] ∧
      m.tag = some p.tag ∧ p.unit = 0 ∧ NotQueued s p 4 ∧
      let e := answerPkt .rsp 6 false
      oldEpoch s e = false ∧ e.tag ≠ noTag ∧ takesResponse e.dst.toNat e s = true ∧ s.penOfFold 0 = some pen1 ∧ e.unit = 0 ∧
      NotQueued s e 4) ∧
    (
      let p := answerPkt .snp 1 false 287
      let s : State := { mid with eng := { units := [(28, { hurdle := .opened })] } }
      p.dst.toNat = 272 + 15 ∧ bit p.body.mask 0 = true ∧ (s.engine (8 * (15 / 4) + 4 + 0)).hurdle = .opened ∧ NotQueued s p 4) ∧
    banked.bankShut (answerPkt .snp 2 false 271).dst.toNat = false ∧ NotQueued banked (answerPkt .snp 2 false 271) 5 ∧
    (answerPkt .snp 3 false 287).dst.toNat < 288 := by
  unfold NotQueued
  decide +kernel

theorem witness_Routing :
    malformed {} = true ∧
    (∀ type ∈ [(1 : BitVec 5), 2],
      let p := { askPkt .req type with tag := 7, body := { flits := flitsOf (askPkt .req type) } }
      malformed p = false ∧ p.type ≠ 3 ∧ tagged p = (type == 1) ∧ tagFree mid p = true ∧ ((mid).epochsAt 0).2 = (mid).dw.tep ∧
      outPort (mid).dw.tabs 0 p.dst.toNat = some 1 ∧ outPort (mid).dw.tabs 0 271 ≠ none) ∧
    (∀ port ∈ [3, 5],
      let x : Queued := { pkt := { askPkt .req 1 with dst := if port = 3 then 2 else 100 }, inp := 4, since := 0 }
      let m := if port = 3 then 1 else 272
      let s : State := { mid with dw := { queues := [(queueKey m .req port, [x])] } }
      (∃ n < 288, ∃ inp : Fin 7, feeder n inp = some (m, port) ∧ m ≠ n ∧ outPort s.dw.tabs n x.pkt.dst.toNat ≠ some 5) ∧
      Store.get s.dw.used 0 (queueKey m .req port) ≤ nclk s true ∧ choose s m .req port true = some x ∧ x.pkt.tep = s.dw.tep) ∧
    (placeOf 0).die = (placeOf 67).die ∧ (1 : BitVec 2) ≠ 0 ∧
    (
      let x : Queued := { pkt := askPkt .req 1, inp := 4, since := 0 }
      x ∈ heads [x] [] ∧ x.since + 256 * (x.raised + 1) ≤ 2 * (mid).frame.time) := by decide +kernel

/-- A PLANE_OUT whose mover has read five rows, a mover with another tag, and a head that a link passes on. -/
theorem witness_Routing_streams :
    (let m : Move := ⟨true, 5, 2, 0, 5, false, List.replicate 5 1, some 7, 0⟩
     let s := withFold { moves := [m] }
     let p : Pkt := { askPkt .data 0x11 with dst := 2, src := 0, len := 63 }
     m ∈ (s.fold 0).moves.head? ∧ m.out = true ∧ m.tag = some p.tag ∧ p.net = .data ∧ p.unit = 0 ∧ p.src.toNat = 0) ∧
    (let m : Move := ⟨true, 5, 2, 0, 5, false, List.replicate 5 1, some 6, 0⟩
     let s := withFold { moves := [m] }
     ∀ x ∈ (s.fold 0).moves.head?, ¬ (x.out = true ∧ x.tag = some (askPkt .data 0x11).tag)) ∧
    (let x : Queued := { pkt := { askPkt .req 1 with dst := 2, body := { flits := 1 } }, inp := 4, since := 0 }
     x.sent = 0 ∧ x.pkt.net = .req ∧ x.pkt.tep = (mid).dw.tep ∧ ¬ (x.pkt.net = .req ∧ x.pkt.type = 3) ∧
     ∃ q, outPort (mid).dw.tabs 0 x.pkt.dst.toNat = some q ∧ q ≠ 5) := by decide +kernel

theorem witness_BankUpkeepAndSeals :
    (
      let s : State := { mid with banks := [(271, { power := .on, hurdle := .opened, writeBack := [65535] })], ecc := [(65536 * 271 + 65535, .single)] }
      (s.bank 271).writeBack = [65535] ∧ s.eccOf 271 65535 = .single) ∧
    (∀ e ∈ [Ecc.good, .single, .double],
      let s := (banked e).setReg .scrub 2 0 0xFFFF0001
      (s.bank 2).power = .on ∧ s.bankShut 2 = false ∧ bit (s.reg .scrub 2) 0 = true ∧ s.eccOf 2 (s.rf .scrub 2 31 16) = e) ∧
    (
      let s : State := { mid with arr := { (mid).arr with folds := [(271, { hurdle := .closing })] } }
      (s.fold 271).hurdle = .closing ∧ (s.fold 271).goal = none) ∧
    (∀ g ∈ [Power.off, .retain],
      (({ mid with arr := { (mid).arr with folds := [(271, { hurdle := .closing, goal := some g })] } } : State).fold 271).goal = some g) ∧
    (
      let s : State := { mid with banks := [(271, { hurdle := .closing, waiting := [⟨askPkt .req 1, 0, 0, 0, []⟩] })] }
      (s.bank 271).hurdle = .closing ∧ isRequest (askPkt .req 1) = true) ∧
    (({ mid with eng := { units := [(31, { hurdle := .closing })] } } : State).engine 31).hurdle = .closing ∧
    bit (mid).dw.lost 7 = false ∧ 7 ∈ stileBridges.getD 3 [] := by decide +kernel

/-- A bank whose port serves a write-back or the scrub at once. -/
theorem witness_BankUpkeepAndSeals_serves :
    (let s : State := { mid with banks := [(271, { power := .on, hurdle := .opened, writeBack := [65535] })] }
     (s.bank 271).writeBack = [65535] ∧ s.bankServes 271 = true ∧ (s.bank 271).waiting = [] ∧ ownMove s 271 = false) ∧
    (let s := (banked .good).setReg .scrub 2 0 0xFFFF0001
     s.bankServes 2 = true ∧ s.bankShut 2 = false ∧ bit (s.reg .scrub 2) 0 = true ∧ (s.bank 2).waiting = [] ∧ ownMove s 2 = false ∧
     (s.bank 2).writeBack = [] ∧ (s.bank 2).busy = false) := by decide +kernel

/-! ### An image -/

/-- A directory entry over a body at an offset. -/
def entry (type off : Nat) (body : List Byte) : List Byte :=
  leBytes 2 type ++ leBytes 2 0 ++ leBytes 4 off ++ leBytes 4 body.length ++ leBytes 4 (crc32c body)

/-- PENS: one pen of fold 0. -/
def pensBody : List Byte := leBytes 8 (1 * 256 + 1 * 2 ^ 17) ++ leBytes 8 0

/-- PROGRAM: one word, SYS HALT. -/
def programBody : List Byte := leBytes 2 1 ++ leBytes 2 0 ++ leBytes 2 0xBC5

/-- A partial image that replaces the pen of fold 0, and its signature; BASE is a digest of zeros. -/
def image : List Byte :=
  leBytes 4 0x4C425A49 ++ leBytes 2 1 ++ [2, 0] ++ leBytes 4 304 ++ leBytes 2 3 ++ [0, 0] ++ leBytes 2 0x256 ++ [0xB1, 3] ++
    List.replicate 108 0 ++ entry 1 176 pensBody ++ entry 3 192 programBody ++ entry 0xFF 208 (List.replicate 96 0) ++
    pensBody ++ programBody ++ List.replicate 10 0 ++ List.replicate 96 0

/-- The running module with the image in slot 1 in a state, and customer key 0 enrolled or not. -/
def holding (st : SlotState) (key : Byte) : State :=
  { mid with
    hub := { (mid).hub with settings := { cur := { bytes := [(0x200, key)] } }, autoNames := [1, 0xFF] }
    ldr := { slots := #v[{}, { st := st, partialImage := true, length := 304, pieces := [(0, image)] }, {}]
             inForce := some { digest := List.replicate 48 0, stages := [⟨2000, 900000, 1, 1, [(0, 0)]⟩], reloc := [(0, none)] } } }

/-- The signature of the image verifies under customer key 0: Config's P-384 verification has no body, so this is assumed. -/
def Signed : Prop := Config.ecdsaOk (List.replicate 97 0) (imgDigest image) (bytesAt image (sigOffset image) 96) = true

/-- Whether a state finds the image good but for its signature. -/
def fine (s : State) : Bool :=
  slotBytes (s.slot 1) == image && (s.slot 1).length == 304 && customerKey s 0 == some (List.replicate 97 0) &&
  match readSections s image with
  | .inl _ => false
  | .inr ss => (contentErr s (imageOf (imgPartial image) ss) ss).isNone &&
    (forceErr s (imageOf (imgPartial image) ss) (imgBase image) ss).isNone &&
    (ingestEgressErr s (imageOf (imgPartial image) ss)).isNone

theorem judged (s : State) (m : Moment) (hf : fine s = true) (h : Signed) : ∃ img, judgeSlot s 1 m = .inr img := by
  unfold fine at hf
  simp only [Bool.and_eq_true, beq_iff_eq] at hf
  obtain ⟨⟨⟨hb, hl⟩, hk⟩, hr⟩ := hf
  have hs : signatureErr s image = none := by
    unfold signatureErr
    rw [show imgKeySlot image = 0 from by decide +kernel, hk]
    unfold Signed at h
    simp only [failIf, h]
    rfl
  have h1 : formatErr image 304 = none := by decide +kernel
  have h2 : targetErr image = none := by decide +kernel
  have h3 : crcErrs image = none := by decide +kernel
  have h4 : setErr image = none := by decide +kernel
  unfold judgeSlot
  rw [hb, hl]
  unfold judge
  rw [h1, h2, h3, h4, hs]
  simp only [ite_self, firstFail, List.findSome?_cons, id, List.findSome?_nil]
  cases hq : readSections s image with
  | inl e => rw [hq] at hr; cases hr
  | inr ss =>
    rw [hq] at hr
    simp only [Bool.and_eq_true, Option.isNone_iff_eq_none] at hr
    simp only [hr.1.1, hr.1.2, hr.2, ite_self]
    exact ⟨_, rfl⟩

/-- A mailbox command of the service port: code, ARG and payload. -/
def svcReq (code arg : Nat) (data : List Byte) : MboxReq :=
  { svc := true, hdr := leBytes 2 code ++ [0, 0] ++ leBytes 4 data.length ++ [0, 0, 0, 0] ++ leBytes 4 arg, payload := data }

/-- What the command runs on. -/
def svcAsk (arg : Nat) (data : List Byte) : Req := ⟨true, arg, data, true, none⟩

/-- A header of the service port, checked. -/
def headerFine (code arg : Nat) (data : List Byte) : Bool :=
  leAt (svcReq code arg data).hdr 0 2 == code && !(headerBad (svcReq code arg data).hdr) &&
    leAt (svcReq code arg data).hdr 4 4 == data.length && leAt (svcReq code arg data).hdr 12 4 == arg &&
    bytesAt data 0 data.length == data && (svcReq code arg data).hdr.length == 16

/-- A command of the service port is there to be run in any state that serves its code. -/
theorem asked (s : State) (code arg : Nat) (data : List Byte)
    (h : (headerFine code arg data && served s true code && s.host.svcHeld.isNone && !(hostFirst s)) = true) :
    Commands (svcReq code arg data) s code (svcAsk arg data) := by
  unfold headerFine at h
  simp only [Bool.and_eq_true, beq_iff_eq, Bool.not_eq_true', Option.isNone_iff_eq_none] at h
  obtain ⟨⟨⟨⟨⟨⟨⟨⟨h1, h2⟩, h3⟩, h4⟩, h5⟩, h6⟩, h7⟩, h8⟩, h9⟩ := h
  refine ⟨h1, h2, h7, ?_, ?_⟩
  · rw [if_pos (show (svcReq code arg data).svc = true from rfl)]
    exact ⟨h6, h3.symm, h8, fun _ hf => by rw [h9] at hf; cases hf⟩
  · show (⟨true, arg, data, true, none⟩ : Req) = ⟨true, leAt (svcReq code arg data).hdr 12 4,
      bytesAt data 0 (leAt (svcReq code arg data).hdr 4 4), true, none⟩
    rw [h3, h4, h5]

/-- The same module with a session of the service port on slot 1. -/
def inSession (st : SlotState) (key : Byte) : State :=
  { holding st key with ldr := { (holding st key).ldr with session := some (true, 1, 0) } }

/-- A session of the service port that has written the first 176 bytes of the image. -/
def midSession (wrong : Bool) : State :=
  { inSession .loading 1 with
    ldr := { (inSession .loading 1).ldr with
      slots := #v[{}, { st := .loading, partialImage := true, length := 304,
                        pieces := [(0, if wrong then (image.take 156).concat 1 ++ image.drop 157 |>.take 176 else image.take 176)] }, {}] } }

theorem rejected (s : State) (m : Moment) (h : (judgeSlot s 1 m).isLeft = true) : ∃ e, judgeSlot s 1 m = .inl e := by
  cases hj : judgeSlot s 1 m with
  | inl e => exact ⟨e, rfl⟩
  | inr r => rw [hj] at h; cases h

theorem witness_LoadSessions (h : Signed) :
    Commands (svcReq 0x10 2 (image.take 128)) mid 0x10 (svcAsk 2 (image.take 128)) ∧
    (
      let s := holding .stored 1
      let q := svcAsk 2 (image.take 128)
      q.arg = 2 ∧ q.data.length = 128 ∧ s.hub.fuses.lc ≠ 3 ∧ s.ldr.session.any (·.1 != q.svc) = false ∧
      s.ldr.inForce.any (·.slot == some 2) = false ∧ s.actBusy = false ∧ imgEnc q.data = false ∧ q.flashOk = true) ∧
    (
      let s := inSession .loading 1
      s.ldr.session.any (·.1 != false) = true ∧ s.hub.fuses.lc ≠ 3) ∧
    (∃ v, InSession (midSession false) (svcAsk 176 (image.drop 176)) 1 v) ∧
    Commands (svcReq 0x11 176 (image.drop 176)) (midSession false) 0x11 (svcAsk 176 (image.drop 176)) ∧
    (
      let s := midSession false
      let q := svcAsk 176 (image.drop 176)
      q.arg % 16 = 0 ∧ q.data ≠ [] ∧ q.arg + q.data.length ≤ (s.slot 1).length ∧ q.data.length % 16 = 0 ∧
      sliceOf (s.slot 1).pieces q.arg q.data.length = [] ∧ q.flashOk = true ∧
      badSection (s.slot 1).pieces (Store.set (s.slot 1).pieces [] q.arg q.data) = none) ∧
    (
      let s := midSession true
      let q := svcAsk 176 (image.drop 176)
      sliceOf (s.slot 1).pieces q.arg q.data.length = [] ∧
      (badSection (s.slot 1).pieces (Store.set (s.slot 1).pieces [] q.arg q.data)).isSome = true) ∧
    (∃ v, InSession (inSession .loading 1) (svcAsk 0 []) 1 v ∧ ∃ img, judgeSlot v 1 .ended = .inr img) ∧
    (slotBytes ((inSession .loading 1).slot 1)).length = ((inSession .loading 1).slot 1).length ∧
    (∃ v, InSession (inSession .loading 0) (svcAsk 0 []) 1 v ∧ ∃ e, judgeSlot v 1 .ended = .inl e) ∧
    Commands (svcReq 0x12 0 []) (inSession .loading 1) 0x12 (svcAsk 0 []) ∧
    (mid).ldr.session = none ∧ (mid).ldr.stolen = false := by
  refine ⟨asked _ _ _ _ (by decide +kernel), by decide +kernel, by decide +kernel, ⟨_, ⟨0, rfl⟩, rfl⟩,
    asked _ _ _ _ (by decide +kernel), by decide +kernel, by decide +kernel, ⟨_, ⟨⟨0, rfl⟩, rfl⟩, judged _ _ ?_ h⟩, by decide +kernel,
    ⟨_, ⟨⟨0, rfl⟩, rfl⟩, ?_⟩, asked _ _ _ _ (by decide +kernel), rfl, rfl⟩
  · decide +kernel
  · exact rejected _ _ (by decide +kernel)

theorem witness_SessionTimeout : (inSession .loading 1).ldr.session = some (true, 1, 0) := rfl

theorem witness_StoreAndActivate (h : Signed) :
    (
      let s := holding .stored 1
      slotUsable (s.slot 1) = true ∧ s.actBusy = false ∧ s.hub.fw.st ≠ .scheduled ∧ s.frame.epoch.toNat < 9 ∧
      leBytes 6 9 ++ [0, 0] = [9, 0, 0, 0, 0, 0, 0, 0]) ∧
    Commands (svcReq 0x14 1 (leBytes 1 0 ++ [0, 0, 0])) (holding .stored 1) 0x14 (svcAsk 1 (leBytes 1 0 ++ [0, 0, 0])) ∧
    Commands (svcReq 0x13 1 (leBytes 6 9 ++ [0, 0])) (holding .stored 1) 0x13 (svcAsk 1 (leBytes 6 9 ++ [0, 0])) ∧
    (
      let s : State := { holding .verified 1 with ldr := { (holding .verified 1).ldr with
        slots := #v[{}, { ((holding .verified 1).slot 1) with partialImage := false }, {}] } }
      slotUsable (s.slot 1) = true ∧ (s.slot 1).partialImage = false ∧ s.hub.fuses.lc ≠ 3 ∧ s.hub.fw.st ≠ .confirming) ∧
    (∃ img, judgeSlot (holding .stored 1) 1 .activated = .inr img) ∧ (∃ e, judgeSlot (holding .stored 0) 1 .activated = .inl e) ∧
    ({ holding .stored 1 with ldr := { (holding .stored 1).ldr with act := .loading } } : State).actBusy = true :=
  ⟨by decide +kernel, asked _ _ _ _ (by decide +kernel), asked _ _ _ _ (by decide +kernel), by decide +kernel,
    judged _ _ (by decide +kernel) h, rejected _ _ (by decide +kernel), rfl⟩

/-- The module at cycle P with a tick requested, an activation of slot 1 pending for the frame that opens. -/
def atT0 (key : Byte) : State :=
  { holding .stored key with
    frame := atP.frame
    ldr := { (holding .stored key).ldr with act := .pending, actSlot := 1, actEpoch := 1, actArmed := true } }

/-- A module that loads a partial image with a program for fold 0. -/
def loadingNow : State :=
  { mid with ldr := { (mid).ldr with
      act := .loading
      load := some { img := { full := false, pens := [cfg1], programs := [(0, [0xBC5], [5])] }, digest := [], enc := false, replaced := [0] } } }

theorem witness_ActivationAndAutoload (h : Signed) :
    (∀ key ∈ [(1 : Byte), 0],
      let s := atT0 key
      PlainTick s ∧ s.ldr.act = .pending ∧ s.ldr.actArmed = true ∧ s.ldr.load = none ∧ s.ldr.actEpoch ≤ s.frame.epoch.toNat + 1 ∧
      s.ldr.actEpoch ≤ (newFrame s).frame.epoch.toNat ∧ s.ldr.actAuto = 0) ∧
    (∃ img, judgeSlot (newFrame (atT0 1)) 1 .activated = .inr img) ∧ (∃ e, judgeSlot (newFrame (atT0 0)) 1 .activated = .inl e) ∧
    (∃ l, loadingNow.ldr.load = some l ∧ loadingNow.ldr.act = .loading ∧ l.complete = false ∧ loadingNow.ldr.actAuto = 0 ∧
      loadingNow.mode ≠ .halted ∧ NoHosttick l.img ∧ Programs loadingNow l 0 (0, [0xBC5], [5])) ∧
    (
      let s : State := { holding .stored 1 with ldr := { (holding .stored 1).ldr with actAuto := 1 } }
      s.phase = .ready ∧ s.ldr.actAuto = 1 ∧ s.actBusy = false ∧ s.ldr.autoFails = [] ∧ autoSlot s 1 = some 1 ∧ autoSlot s 2 = none ∧
      (autoErr s 1).isSome = true) ∧
    (
      let s : State := { mid with ldr := { (mid).ldr with actAuto := 1 } }
      autoSlot s 1 = none ∧ autoSlot s 2 = none) := by
  refine ⟨?_, judged _ _ (by decide +kernel) h, rejected _ _ (by decide +kernel),
    ⟨_, rfl, rfl, rfl, rfl, by decide, (fun x hx => by cases hx), 0, by decide, cfg1, by decide, by decide, by decide +kernel⟩, by decide +kernel, by decide +kernel⟩
  intro key hk
  simp only [List.mem_cons, List.not_mem_nil, or_false] at hk
  rcases hk with rfl | rfl <;>
  exact ⟨⟨by decide +kernel, by decide +kernel⟩, rfl, rfl, rfl, by decide +kernel, by decide +kernel, rfl⟩

/-- The module at cycle P with a load that is ready: a full image with the pens given. -/
def atT1 (pens : List PenCfg) : State :=
  { atQ with
    ldr := { atQ.ldr with
      act := .ready, actSlot := 2
      load := some { img := { full := true, pens := pens, reloc := [(0, none), (5, some 6)], stages := some [⟨2000, 900000, 1, 1, [(0, 0)]⟩] },
                     digest := List.replicate 48 7, enc := false, replaced := [0], complete := true } } }

/-- A pen of logical fold 1. -/
def cfg2 : PenCfg := { cfg1 with first := 1 }

theorem witness_ActivationAndAutoload_takesEffect :
    (∀ l ∈ [[cfg1], [cfg2], [cfg1, cfg2], []],
      let s := atT1 l
      PlainTick s ∧ s.ldr.act = .ready ∧ ∀ x, s.ldr.load = some x →
        (∀ p ∈ s.arr.pens, ∀ c ∈ x.img.pens, p.cfg.first = c.first → p.cfg.first ∈ x.replaced) ∧ x.img.full = true ∧ x.failed = [] ∧ x.img.pinit = []) ∧
    (atT1 [cfg1]).hub.nextPower = [] ∧
    ((atT1 []).penOf 1 = none ∧ (atT1 []).penOf 0 = some pen1 ∧ cfg1.carried = pen1.cfg.carried ∧
      ¬ ({ cfg1 with cbase := 5 } : PenCfg).cbase = pen1.cfg.cbase) ∧
    ((atT1 [cfg2]).fold 5).role ≠ .isolated ∧ (1 : Nat) ∈ lfsOf [cfg2] := by
  refine ⟨?_, by and_intros <;> decide +kernel⟩
  intro l hl
  refine ⟨⟨?_, ?_⟩, rfl, ?_⟩
  · revert l; decide +kernel
  · revert l; decide +kernel
  · intro x hx
    obtain rfl := Option.some.inj hx
    refine ⟨?_, rfl, rfl, rfl⟩
    intro p hp _ _ _
    obtain rfl : p = pen1 := by simpa [atT1, atQ, atP, running] using hp
    exact List.mem_singleton.2 rfl

/-- The module at cycle P with an armed group. -/
def armed (l : List RegRec) (ov : Bool) : State :=
  { atP with
    arr := { atP.arr with pens := [{ pen1 with cfg := { cfg1 with cbase := 64 } }] }
    ldr := { atP.ldr with armed := some (65535, l, ov) } }

theorem witness_WriteGroups :
    (mid).ldr.armed = none ∧ (armed [] false).ldr.armed.isSome = true ∧
    Commands (svcReq 0x18 0 []) mid 0x18 (svcAsk 0 []) ∧ Commands (svcReq 0x18 1 []) mid 0x18 (svcAsk 1 []) ∧
    PlainTick (armed [] true) ∧ (armed [] true).ldr.load = none ∧ (armed [] true).ldr.act = .idle ∧
    groupCheck false none [] (newFrame (armed [] false)) = 0 ∧
    (
      let l : List RegRec := [((⟨.pgTime, 0, 0⟩ : Reg).addr, 5)]
      (l.map (·.1)).Nodup ∧ (mappedReg (⟨.pgTime, 0, 0⟩ : Reg).addr) = some ⟨.pgTime, 0, 0⟩ ∧
      RegName.pgTime.row.maskOf (· == .ws) ≠ 0 ∧ groupCheck true none l (newFrame (armed l true)) ≠ 0 ∧
      groupCheck false none l (newFrame (armed l false)) = 0) ∧
    (armed [] false).ldr.armedAt ≠ (newFrame (armed [] false)).frame.time ∧
    (
      let s : State := { armed [] false with ldr := { (armed [] false).ldr with armedAt := 1000000 } }
      s.ldr.armedAt = (newFrame s).frame.time) :=
  ⟨rfl, rfl, asked _ _ _ _ (by decide +kernel), asked _ _ _ _ (by decide +kernel), ⟨by decide +kernel, by decide +kernel⟩, rfl, rfl,
    by and_intros <;> decide +kernel⟩

/-- A group with a register that the image due replaces; PERIOD below the last deadline; a broken SYNC rule, with SOURCE 4 and without. -/
theorem witness_WriteGroups_codes :
    (let l : List RegRec := [((⟨.faultcfg, 271, 0⟩ : Reg).addr, 5)]
     let s : State := { atT1 [cfg1] with ldr := { (atT1 [cfg1]).ldr with armed := some (65535, l, false), armedAt := 5 } }
     PlainTick s ∧ s.ldr.act = .ready ∧ s.ldr.armed = some (65535, l, false) ∧ s.ldr.armedAt ≠ (newFrame s).frame.time ∧
     ∃ r ∈ l, ∃ g, mappedReg r.1 = some g ∧ g.name ∈ [RegName.seqcfg, .faultcfg, .racfg, .pinOut]) ∧
    (let s := armed [(0x404, 901023)] false
     s.stages.getLast?.map (·.deadline) = some 900000 ∧ fld (901023 : Word) 30 0 < 900000 + 1024 ∧
     s.ldr.armedAt ≠ (newFrame s).frame.time) ∧
    (let s := armed [(0x40C, 0x12)] false
     (∀ st ∈ s.stages, st.deadline + 1024 ≤ s.period) ∧ fld (0x12 : Word) 7 4 < fld (0x12 : Word) 3 0 ∧
     (fld (0x11 : Word) 3 0 = 0 ↔ (s.setReg .tickcfg 0 0 4).rf .tickcfg 0 2 0 = 4) = False ∧
     (fld (0 : Word) 3 0 = 0 ↔ (s.setReg .tickcfg 0 0 4).rf .tickcfg 0 2 0 = 4)) := by
  unfold PlainTick
  refine ⟨⟨by decide +kernel, rfl, rfl, by decide +kernel, _, List.mem_singleton.2 rfl, ⟨.faultcfg, 271, 0⟩, by decide +kernel, by decide⟩,
    by decide +kernel, by decide +kernel, by decide +kernel, ?_, by decide +kernel⟩
  decide +kernel

theorem witness_RegisterWrites :
    (
      let g : Reg := ⟨.ptpstepHi, 31, 0⟩
      Reaches mid g.addr g ∧ valueOk g 5 = true ∧ g.name.row.maskOf (· == .wx) = 0 ∧ g.name ∉ acting ∧ g.name.row.maskOf (· == .ws) = 0) ∧
    (
      let g : Reg := ⟨.tickcfg, 0, 0⟩
      Reaches mid g.addr g ∧ valueOk g 7 = false) ∧
    (
      let g : Reg := ⟨.pinCfg, 191, 0⟩
      Reaches mid g.addr g ∧ g.name.row.maskOf (· == .wx) ≠ 0 ∧ (mid).regionRuns (regionOf g) = true) ∧
    (
      let g : Reg := ⟨.pgTime, 15, 0⟩
      Reaches mid g.addr g ∧ valueOk g 5 = true ∧ g.name ∉ acting ∧ g.name.row.maskOf (· == .ws) ≠ 0 ∧
      (putRec (g.addr, 5) (mid).ldr.wgOpen).length ≤ 1024 ∧ 1024 < (putRec (g.addr, 5) (List.replicate 1024 (0, 0))).length) ∧
    mappedReg 0x3FFFFFC = none ∧ blockHidden mid 0x3FFFFFC = false ∧ blockHidden { mid with mode := .standby } 0x100000 = true ∧
    (
      let g : Reg := ⟨.faultstat, 271, 0⟩
      let s : State := { mid with evt := { setAt := 2000, setNow := [(g.addr, 1)] } }
      Reaches s g.addr g ∧ g.name ∉ acting ∧ g.name.row.fields.any (fun f => f.cls == .w1c && f.lo == 0) = true ∧
      bit (s.setThisCycle g.name g.i) 0 = true) ∧
    Awake mid := by
  unfold Reaches Awake
  and_intros <;> decide +kernel

theorem witness_ActingRegistersAndPackets :
    Awake mid ∧
    (
      let g : Reg := ⟨.seg, 15, 223⟩
      Reaches mid g.addr g ∧ valueOk g 0x80000001 = true ∧ bit (0x80000001 : Word) 31 = true ∧
      (mid).ldr.inForce.any (fun f => f.routing == []) = true ∧
      let s : State := { mid with ldr := { (mid).ldr with
        inForce := some { routing := [⟨edgeSegIndex 15 223, 0, 256⟩] } } }
      Reaches s g.addr g ∧ (0 : Nat) ≠ fld (0x80000001 : Word) 11 0) ∧
    (
      let p := { askPkt .req 8 with dst := 287 }
      p.dst.toNat < 288 ∧ (askPkt .req 9 [3]).dst.toNat < 272 ∧ (askPkt .req 9 [3]).body.payload = [3] ∧ NotQueued mid p 4 ∧
      NotQueued mid (askPkt .req 9 [3]) 4) :=
  ⟨.inr (.inl rfl), by unfold Reaches; decide +kernel, by unfold NotQueued; decide +kernel⟩

/-! ### Sensor lanes -/

/-- A Filop Link message: type, flags, stream, sequence word and payload. -/
def message (type flags stream seq : Nat) (payload : List Byte) : List Byte :=
  let m := leBytes 1 type ++ leBytes 1 flags ++ leBytes 2 stream ++ leBytes 6 0 ++ leBytes 4 seq ++ leBytes 2 payload.length ++ payload
  m ++ leBytes 4 (crc32c m)

/-- The module with lane 31 on Filop Link, taking lines of two 8-bit samples of stream 5 into 100 rows; the lane as given. -/
def withLane (x : Lane) : State :=
  { (((((mid.setReg .laneCfg 31 0 0x80000000).setReg .ingcfg 31 0 0x800A1000).setReg .ingsrc 31 0 5).setReg .inggeom 31 0 2).setReg
      .ingrows 31 0 100) with
    lanes := [(31, x)] }

theorem witness_StatusMessages :
    Passes (withLane {}) 31 (message 4 0 5 0 (List.replicate 64 1)) 4 1 ∧
    leAt (message 4 0 5 0 (List.replicate 64 1)) 14 2 ≤ 64 ∧ Passes (withLane {}) 31 (message 4 0 5 0 []) 4 1 := by
  unfold Passes; decide +kernel

theorem witness_LaneMessages :
    (let m := message 3 1 5 0 (leBytes 8 9)
     Passes (withLane {}) 31 m 3 2 ∧ leAt m 14 2 = 8 ∧ leAt m 1 1 = 1) ∧
    Block (withLane {}) 31 (message 1 1 5 (4096 * 7) [1]) 7 0 true false ∧
    (let s := withLane { line := some ⟨7, 4093, [1]⟩ }
     Block s 31 (message 1 0 5 (4096 * 7 + 4094) []) 7 4094 false false ∧ (s.lane 31).line = some ⟨7, 4093, [1]⟩) ∧
    (let s := withLane { line := some ⟨7, 0, [1]⟩ }
     let m := message 1 2 5 (4096 * 7 + 1) [2]
     Block s 31 m 7 1 false true ∧ (s.lane 31).ingLoad = false ∧ ([(1 : Byte)] ++ payloadOf m).length = lineSize s 31 ∧
     lineSize s 31 ≤ 32768 ∧ (s.lane 31).pos = none ∧ s.rf .ingrows 31 15 0 ≠ 0) ∧
    (∀ x ∈ [((7 : Nat), (98 : Nat)), (8, 98), (7, 99), (6, 0), (2 ^ 19 + 6, 0)],
      let s := withLane { line := some ⟨x.1, 0, [1]⟩, pos := some (x.2, 6) }
      let m := message 1 2 5 (4096 * x.1 + 1) [2]
      Block s 31 m x.1 1 false true ∧ (s.lane 31).line = some ⟨x.1, 0, [1]⟩ ∧ (s.lane 31).pos = some (x.2, 6) ∧
      ([(1 : Byte)] ++ payloadOf m).length = lineSize s 31) ∧
    (let s := withLane { line := some ⟨7, 0, [1]⟩ }
     let m := message 1 2 5 (4096 * 7 + 1) [2, 3]
     Block s 31 m 7 1 false true ∧ ([(1 : Byte)] ++ payloadOf m).length ≠ lineSize s 31) ∧
    (let s := withLane { bufs := [⟨[], 0, 0⟩, ⟨[], 1, 0⟩] }
     Block s 31 (message 1 3 5 (4096 * 7) [1, 2]) 7 0 true true ∧ (s.lane 31).line = none ∧ 2 ≤ (s.lane 31).bufs.length ∧
     (s.lane 31).dropFired = false) ∧
    (let s := withLane {}
     s.linkLane 31 = true ∧ (message 4 0 5 0 [1] ++ [0]).length ≠ 20 + leAt (message 4 0 5 0 [1] ++ [0]) 14 2 ∧
     (let m := (message 4 0 5 0 [1]).take 20 ++ [0]
      m.length = 20 + leAt m 14 2 ∧ leAt m 14 2 ≤ 8192 ∧ crc32c (m.take (16 + leAt m 14 2)) ≠ leAt m (16 + leAt m 14 2) 4) ∧
     Passes s 31 (message 1 1 6 0 [1]) 1 4 ∧ leAt (message 1 1 6 0 [1]) 2 2 ≠ s.rf .ingsrc 31 15 0) := by
  unfold Block Passes
  refine ⟨?_, ?_, ?_, ?_, ?_, ?_, ?_, ?_⟩
  · decide +kernel
  · decide +kernel
  · decide +kernel
  · decide +kernel
  · decide +kernel
  · decide +kernel
  · decide +kernel
  · decide +kernel

theorem witness_CornerTurnAndLink :
    (let s := withLane { bufs := [⟨[1, 2], 63, 0⟩], ingLoad := true }
     (s.lane 31).bufs = [⟨[1, 2], 63, 0⟩] ∧ (s.lane 31).ingLoad = true) ∧
    (let s := withLane { bufs := [⟨[1, 2], 63, 0⟩] }
     ∃ g, s.ingestTarget 31 = some g ∧ s.penAt g.pen = some pen1 ∧ g.y0 + 63 < 64 * (pen1.cfg.count / pen1.cfg.width) ∧
       fld (s.reg .ingplanes 31) 10 0 + fld (s.reg .ingcfg 31) 26 19 * fld (s.reg .ingcfg 31) 13 9 ≤ 2048 ∧
       0 < fld (s.reg .ingcfg 31) 13 9 ∧ (0, 0) ∈ targetFolds s pen1.cfg g (g.y0 + 63) ∧ (s.fold 0).power = .on) ∧
    bit ((withLane {}).reg .laneStatus 31) 31 = false ∧ bit ((withLane {}).reg .laneCfg 31) 31 = true ∧
    ((withLane {}).lane 31).failed = false ∧ bit ((mid).reg .laneCfg 0) 31 = false := by
  refine ⟨by decide +kernel, ⟨_, rfl, ?_⟩, by decide +kernel, by decide +kernel, by decide +kernel, by decide +kernel⟩
  decide +kernel

/-- An Ethernet frame: 12 bytes of addresses, EtherType, the rest, padded to 60 bytes, FCS. -/
def frameOf (dst : List Byte) (type : List Byte) (rest : List Byte) : List Byte :=
  let b := dst ++ List.replicate 6 2 ++ type ++ rest
  let b := b ++ List.replicate (60 - b.length) 0
  b ++ leBytes 4 (ethCrc b)

/-- A GVSP leader over UDP and IPv4: port 5, block 9, Mono8, two columns, 100 rows. -/
def leader : List Byte :=
  let gvsp : List Byte := [0, 0, 0, 9, 1, 0, 0, 0] ++ [0, 0] ++ [0, 1] ++ List.replicate 8 0 ++ [0x01, 0x08, 0, 0x01] ++ [0, 0, 0, 2] ++
    [0, 0, 0, 100] ++ List.replicate 12 0
  let udp : List Byte := [0, 1, 0, 5] ++ [0, BitVec.ofNat 8 (8 + gvsp.length)] ++ [0, 0] ++ gvsp
  let ip : List Byte := [0x45, 0, 0, BitVec.ofNat 8 (20 + udp.length), 0, 0, 0, 0, 64, 17]
  let tail : List Byte := [10, 0, 0, 1, 10, 0, 0, 2]
  let sum := (65535 * 65536 - onesSum (ip ++ [0, 0] ++ tail)) % 65535
  frameOf [0xFF, 0xFF, 0xFF, 0xFF, 0xFF, 0xFF] [8, 0] (ip ++ [BitVec.ofNat 8 (sum / 256), BitVec.ofNat 8 sum] ++ tail ++ udp)

/-- The module with lane 31 on Ethernet, its rings as given. -/
def withEther (n : Nic) (x : Lane := {}) : State :=
  { ((((((mid.setReg .laneCfg 31 0 0xC0000000).setReg .ingcfg 31 0 0x800A1000).setReg .ingsrc 31 0 5).setReg .inggeom 31 0 2).setReg
      .ingrows 31 0 100).setReg .laneIpv4 31 0 0x0A000002).setReg .rxtail 31 0 15 with
    lanes := [(31, x)]
    host := { nic := [(31, n)] } }

/-- The checks on a frame's length and FCS. -/
def frameGood (b : List Byte) : Bool :=
  64 ≤ b.length && b.length ≤ 9216 && ethCrc (b.take (b.length - 4)) == leAt b (b.length - 4) 4

theorem witness_LaneFrames :
    (
      let b := (frameOf (List.replicate 6 0xFF) [0x12, 0x34] []).take 63 ++ [0]
      let s := withEther {}
      s.etherLane 31 = true ∧ 64 ≤ b.length ∧ b.length ≤ 9216 ∧ ethCrc (b.take (b.length - 4)) ≠ leAt b (b.length - 4) 4) ∧
    (
      let b := frameOf (List.replicate 6 0xFF) [0x88, 0x08] [0, 1]
      frameGood b = true ∧ flowControl (ethFrame b).bytes = true) ∧
    (
      let b := frameOf (List.replicate 6 4) [0x12, 0x34] []
      let f := ethFrame b
      frameGood b = true ∧ flowControl f.bytes = false ∧ addressMatch (withEther {}) 31 f.bytes = false) ∧
    (
      let s := withEther { rx := ⟨true, 0x1000, 16⟩ }
      let b := frameOf (List.replicate 6 0xFF) [0x12, 0x34] []
      let f := ethFrame b
      let desc := leBytes 8 0x2000 ++ leBytes 2 2048 ++ leBytes 6 0
      frameGood b = true ∧ flowControl f.bytes = false ∧ beAt f.bytes 12 2 ≠ 0x88F7 ∧ addressMatch s 31 f.bytes = true ∧
      udpOf f.bytes = none ∧ (s.nic 31).rx.on = true ∧ s.inD3 = false ∧ s.edge.halted = false ∧
      s.rf .rxhead 31 11 0 ≠ s.rf .rxtail 31 11 0 % (s.nic 31).rx.size ∧ f.bytes.length ≤ leAt desc 8 2 ∧
      (s.nic 31).rx.size ≤ 4096 ∧ 0 < (s.nic 31).rx.size ∧ ((withEther {}).nic 31).rx.on = false) ∧
    (
      let s := withEther {}
      let f := ethFrame leader
      frameGood leader = true ∧ addressMatch s 31 f.bytes = true ∧ beAt f.bytes 12 2 = 0x0800 ∧
      (udpOf f.bytes).any (fun x => x.1 == s.rf .ingsrc 31 15 0 && leAt x.2 4 1 == 1 && beAt x.2 10 2 == 1 &&
        beAt x.2 24 4 == s.rf .inggeom 31 15 0 && beAt x.2 40 4 == 0 && pixelFormat (beAt x.2 20 4) ==
          some (fld (s.reg .ingcfg 31) 26 19, fld (s.reg .ingcfg 31) 18 14, bit (s.reg .ingcfg 31) 28) && x.1 != 319) = true ∧
      bit (s.reg .ingcfg 31) 31 = true ∧ bit (s.reg .ingcfg 31) 29 = false ∧ (s.lane 31).gvsp = none) ∧
    (
      let s := { (withEther { tx := ⟨true, 0x1000, 4096⟩ }).setReg .txtail 31 0 4095 with evt := {} }
      s.etherLane 31 = true ∧ (s.nic 31).tx.on = true ∧ s.inD3 = false ∧ s.edge.halted = false ∧ (s.lane 31).loading = false ∧
      s.rf .txhead 31 11 0 ≠ s.rf .txtail 31 11 0 % (s.nic 31).tx.size ∧ (s.nic 31).tx.size ≤ 4096 ∧ 0 < (s.nic 31).tx.size) ∧
    8 < fld (0x80000900 : Word) 11 8 ∧ fld (0x80000800 : Word) 11 8 ≤ 8 ∧ bit (0x80000800 : Word) 31 = true ∧
    bit ((withEther {}).reg .rxcfg 31) 31 = false ∧ bit ((withEther {}).reg .txcfg 31) 31 = false := by decide +kernel

/-! ### The mailbox's other commands -/

theorem witness_MailboxAnswers :
    NoArgs (svcAsk 0 []) ∧ ¬ NoArgs (svcAsk 1 []) ∧
    (∀ code ∈ [0x01, 0x40, 0x22, 0x48], (headerFine code 0 [] && served mid true code) = true) ∧
    Commands (svcReq 0x01 0 []) mid 0x01 (svcAsk 0 []) ∧ (mid).hub.fw.session = none ∧ State.reset.ldr.inForce = none ∧
    (
      let q := svcAsk 0xFFFFFFFF (leBytes 4 1023)
      leAt q.data 0 4 = 1023 ∧ q.data.length = 4 ∧ q.arg = 0xFFFFFFFF ∧ (headerFine 0x38 0xFFFFFFFF (leBytes 4 1023) && served mid true 0x38) = true) ∧
    (
      let q := svcAsk 0xFFFF (leBytes 4 1)
      leAt q.data 0 4 = 1 ∧ q.arg + 1 ≤ 65536 ∧ (headerFine 0x30 0xFFFF (leBytes 4 1) && served mid true 0x30) = true) ∧
    (headerFine 0x51 287 [] && served mid true 0x51) = true :=
  ⟨⟨rfl, rfl⟩, fun h => absurd h.1 (by decide), by decide +kernel, asked _ _ _ _ (by decide +kernel), rfl, rfl, by decide +kernel,
    by decide +kernel, by decide +kernel⟩

theorem witness_MailboxAnswers_session :
    ∃ x, ({ mid with hub := { (mid : State).hub with fw := { session := some x } } } : State).hub.fw.session = some x :=
  ⟨⟨true, [], 352, 2, []⟩, rfl⟩

/-- A request of the host's mailbox, waiting. -/
def hostAsks (code arg len : Nat) : State :=
  { mid with host := { mbox := { busy := true, hdr := leBytes 2 code ++ [0, 0] ++ leBytes 4 len ++ leBytes 4 0 ++ leBytes 4 arg, rmax := 65536 } } }

theorem commands_host : Commands { svc := false, hdr := [], payload := [] } (hostAsks 0x01 0 0) 0x01 ⟨false, 0, [], true, none⟩ := by
  refine ⟨by decide +kernel, by decide +kernel, by decide +kernel, ?_, ?_⟩
  · rw [if_neg (by decide)]
    decide +kernel
  · have h : leAt (reqHeader { svc := false, hdr := [], payload := [] } (hostAsks 1 0 0)) 12 4 = 0 := by decide +kernel
    have h' : leAt (reqHeader { svc := false, hdr := [], payload := [] } (hostAsks 1 0 0)) 4 4 = 0 := by decide +kernel
    rw [h, h']
    rfl

/-- Reading PERIOD changes nothing. -/
theorem busRead_period (s : State) : (busRead (⟨.period, 0, 0⟩ : Reg).addr s).2 = s := by
  have h : mappedReg (⟨.period, 0, 0⟩ : Reg).addr = some ⟨.period, 0, 0⟩ := by decide +kernel
  unfold busRead
  rw [h]
  split <;> rfl

theorem witness_DebugAndRegisterAccess :
    (∀ i < 1, (busRead ((⟨.period, 0, 0⟩ : Reg).addr + 4 * i) mid).2 = mid) ∧
    (headerFine 0x60 (⟨.period, 0, 0⟩ : Reg).addr (leBytes 4 1) && served mid true 0x60) = true ∧
    ((busWrite (⟨.ptpstepHi, 31, 0⟩ : Reg).addr 5 mid).1 = true ∧
      (busWrite (⟨.ptpstepHi, 31, 0⟩ : Reg).addr 5 mid).2.host.mbox = mid.host.mbox) ∧
    ((busWrite 0x3FFFFFC 5 mid).1 = false ∧ (busWrite 0x3FFFFFC 5 mid).2.host.mbox = mid.host.mbox) ∧
    (busWrite 3 5 mid).1 = false ∧
    (mid.fold 0).hurdle = .opened ∧ mid.hub.encrypted = false ∧ debugMax 2 = 128 ∧ mid.badRows 0 0 = 0 ∧
    (mid.fold 271).hurdle ≠ .opened ∧ mid.present = false ∧
    ({ mid with hub := { (mid : State).hub with encrypted := true } } : State).hub.encrypted = true ∧
    fld (0x80000000 : Word) 31 30 ≠ 3 ∧
    (
      let m := svcReq 0x7FFF 0 []
      m.hdr.length = 16 ∧ m.payload.length = leAt m.hdr 4 4 ∧ leAt m.hdr 0 2 ∉ knownCodes ∧ headerBad m.hdr = false ∧
      mid.mode ≠ .starting ∧ mid.mode ≠ .off) ∧
    (hostAsks 0x7FFF 0 0).host.mbox.busy = true ∧ leAt (hostAsks 0x7FFF 0 0).host.mbox.hdr 0 2 ∉ knownCodes := by
  refine ⟨?_, by and_intros <;> decide +kernel⟩
  intro i hi
  obtain rfl : i = 0 := by omega
  exact busRead_period mid

/-- The module with a command of the host accepted 2 ACLK cycles ago, and maybe one of the service port that waits. -/
def between (held : Option MboxReq) (busy : Bool) : State :=
  { mid with
    frame := { (mid : State).frame with time := 1000 }
    host := { svcHeld := held, mbox := { busy := busy, hdr := leBytes 2 0x10 ++ List.replicate 14 0, since := 998 } } }

theorem witness_DebugAndRegisterAccess_waits :
    (runsAhead mid 0 = false ∧ runsAhead { mid with arr := (running { ra := some (ahead true) }).arr } 0 = true) ∧
    (∃ v u, busWrite (⟨.ptpstepLo, 31, 0⟩ : Reg).addr 5 mid = (true, v) ∧
      busWrite ((⟨.ptpstepLo, 31, 0⟩ : Reg).addr + 4) 5 v = (true, u) ∧ u.host.mbox = mid.host.mbox) ∧
    (
      let m := svcReq 0x12 0 []
      m.svc = true ∧ m.hdr.length = 16 ∧ m.payload.length = leAt m.hdr 4 4 ∧ leAt m.hdr 0 2 = 0x12 ∧
      hostFirst (between none true) = true ∧ hostFirst (between (some m) false) = false ∧
      (between none true).host.mbox.since / 2 < (between none true).frame.time / 2 ∧ (between none true).host.svcHeld = none ∧
      (between (some m) false).host.svcHeld = some m ∧ (between (some m) true).host.svcHeld ≠ some (svcReq 0x12 1 [])) ∧
    (svcReq 0x12 0 [1]).hdr.length = 16 ∧ ({ svcReq 0x12 0 [] with hdr := [] } : MboxReq).hdr.length ≠ 16 :=
  ⟨by decide +kernel, ⟨_, _, rfl, rfl, rfl⟩, by decide +kernel, by decide +kernel⟩

/-- DEBUG_READ of the last plane of a fold, with a move under way and without. -/
theorem witness_DebugAndRegisterAccess_planes :
    (let s := withFold {}
     (s.fold 0).hurdle = .opened ∧ (s.fold 0).moves = [] ∧ (s.fold 0).histo = none ∧ runsAhead s 0 = false ∧
     (portTurn 0 portCycles s).badRows 0 2047 = 0) ∧
    (let s := withFold { moves := [⟨true, 2047, 0, 1023, 63, false, [], none, 0⟩] }
     (s.fold 0).hurdle = .opened ∧ (s.fold 0).moves ≠ [] ∧ (portTurn 0 portCycles s).badRows 0 2047 = 0) := by decide +kernel

/-! ### Settings, power requests, firmware -/

/-- A state under presence. -/
def attended (s : State) : State := { s with hub := { s.hub with pres := { s.hub.pres with source := 1, ends := 1000000000000 } } }

/-- A state of a life cycle. -/
def inCycle (lc : Nat) (s : State) : State := { s with hub := { s.hub with fuses := { s.hub.fuses with lc := lc } } }

/-- A state whose firmware is as given. -/
def withFw (f : Firmware) (s : State) : State := { s with hub := { s.hub with fw := f } }

/-- A byte written to the settings, as a record. -/
theorem written_put (r : SetRec) (o : Nat) (b : Byte) : Written r o [b] (r.put o b) := by
  refine ⟨?_, ?_⟩
  · intro i hi
    obtain rfl : i = 0 := by simp at hi; omega
    simp [SetRec.byte, SetRec.put]
  · intro j hj
    have : j ≠ o := by simp at hj; omega
    exact Store.get_set_ne' _ _ _ _ this

theorem witness_SettingsAndLifeCycle :
    (
      let q := svcAsk 0x21 [1]
      mid.hub.fuses.lc ≠ 3 ∧ mid.hub.fw.st ≠ .confirming ∧ q.data ≠ [] ∧ q.arg + q.data.length ≤ 65536 ∧ q.flashOk = true ∧
      (∀ i < q.data.length, (fieldAt (q.arg + i)).isSome) ∧
      (∀ f ∈ fieldsOf q.arg q.data.length, f ≠ .cfgKey ∧ (f == .key 0 || f == .key 1 || f == .key 2 || f == .key 3) = false ∧
        fieldValueOk (mid.hub.settings.cur.put 0x21 1) f = true ∧ fieldRefused mid f = none) ∧
      (headerFine 0x31 0x21 [1] && served mid true 0x31) = true) ∧
    Written mid.hub.settings.cur 0x21 [1] (mid.hub.settings.cur.put 0x21 1) ∧
    ((inCycle 3 mid).hub.fuses.lc = 3 ∧ served (inCycle 3 mid) true 0x31 = true) ∧
    ((withFw { st := .confirming } mid).hub.fw.st = .confirming ∧ (withFw { st := .confirming } mid).hub.fuses.lc ≠ 3) ∧
    (
      let s := attended mid
      let q := svcAsk 0x400 (List.replicate 160 0)
      s.hub.fuses.lc = 1 ∧ s.present = true ∧ s.tampered = false ∧ s.hub.fuses.tampers < 31 ∧ s.hub.fw.st ≠ .confirming ∧
      q.arg = 0x400 ∧ q.data.length = 160 ∧ bytesAt q.data 157 3 = [0, 0, 0] ∧ q.flashOk = true ∧
      (headerFine 0x31 0x400 (List.replicate 160 0) && served s true 0x31) = true) ∧
    ((svcAsk 0 [1, 0, 0, 0]).data = leBytes 1 1 ++ [0, 0, 0] ∧ mid.present = false ∧
      (headerFine 0x41 0 [1, 0, 0, 0] && served mid true 0x41) = true) ∧
    ((attended mid).present = true ∧ lcAllowed (attended mid).hub.fuses.lc 0 = false) ∧
    (
      let s := inCycle 2 (attended mid)
      lcAllowed s.hub.fuses.lc 1 = true ∧ s.ldr.session = none ∧ s.actBusy = false ∧ s.hub.fw.st ≠ .scheduled ∧
      s.hub.fw.st ≠ .confirming ∧ s.hub.fuses.returns < 15) ∧
    (
      let s := attended (holding .stored 1)
      lcAllowed s.hub.fuses.lc 2 = true ∧ s.ldr.session = none ∧ s.actBusy = false ∧ (customerKey s 0).isSome = true) ∧
    (
      let s := { attended mid with mode := .ready }
      s.present = true ∧ lcAllowed s.hub.fuses.lc 3 = true ∧ s.ldr.session = none ∧ s.actBusy = false) := by
  refine ⟨by decide +kernel, written_put _ _ _, ?_⟩
  decide +kernel

/-- The attended module with a wipe of the secure pasture in progress. -/
def wipingNow : State := { attended mid with hub := { (attended mid).hub with wipe := some ⟨1000000000, none⟩ } }

theorem witness_SettingsAndLifeCycle_wipes :
    (mid.hub.wipe = none ∧ mid.wiping = false) ∧ wipingNow.wiping = true ∧ wipingNow.present = true ∧
    lcAllowed (inCycle 2 wipingNow).hub.fuses.lc 1 = true ∧ ∀ w, wipingNow.hub.wipe = some w → w.bad = none := by
  refine ⟨by decide +kernel, by decide +kernel, by decide +kernel, by decide +kernel, fun w h => ?_⟩
  obtain rfl := Option.some.inj h
  rfl

/-- A POWER record of a pen, to RETAIN or OFF. -/
def penRecord (st first : Nat) : List Byte := leBytes 4 (st * 2 ^ 28 + first)

theorem witness_PowerRequests :
    (∀ b ∈ [penRecord 1 0, leBytes 4 (3 * 2 ^ 30)],
      let q := svcAsk 0 b
      q.arg = 0 ∧ q.data.length % 4 = 0 ∧ 0 < q.data.length ∧ q.data.length ≤ 256 ∧
      (headerFine 0x49 0 b && served mid true 0x49) = true) ∧
    (∀ b ∈ [penRecord 1 0, leBytes 4 (3 * 2 ^ 30)],
      let l := powerRecords b
      let before := afterRecords mid.hub.nextPower mid
      ∀ r ∈ l, powRefused before r = none ∧ powDark (afterRecords (l.filter fun r => r.kind ≠ 3) before) r = false) ∧
    (
      let l := powerRecords (penRecord 1 0 ++ penRecord 1 5)
      let before := afterRecords mid.hub.nextPower mid
      let after := afterRecords (l.filter fun r => r.kind ≠ 3) before
      l[1]? = some ⟨0, 1, 0, 5⟩ ∧ powRefused before ⟨0, 1, 0, 5⟩ = some 3 ∧
      l[0]? = some ⟨0, 1, 0, 0⟩ ∧ powRefused before ⟨0, 1, 0, 0⟩ = none ∧ powDark after ⟨0, 1, 0, 0⟩ = false) ∧
    (
      let s := { withFold {} with hub := (mid : State).hub, ldr := (mid : State).ldr }
      let l := powerRecords (leBytes 4 (2 ^ 30))
      let before := afterRecords s.hub.nextPower s
      let after := afterRecords (l.filter fun r => r.kind ≠ 3) before
      l[0]? = some ⟨1, 0, 0, 0⟩ ∧ powRefused before ⟨1, 0, 0, 0⟩ = none ∧ powDark after ⟨1, 0, 0, 0⟩ = true) := by
  decide +kernel

theorem witness_PowerRequests_module :
    (
      let l := powerRecords (leBytes 4 (3 * 2 ^ 30 + 2 ^ 28))
      l = [⟨3, 1, 0, 0⟩] ∧ mid.mode ≠ .shed ∧ mid.ldr.load = none ∧ loadingNow.ldr.load.isSome = true ∧ loadingNow.mode ≠ .shed ∧
      Takes (afterRecords loadingNow.hub.nextPower loadingNow) (afterRecords [] (afterRecords loadingNow.hub.nextPower loadingNow)) ⟨3, 1, 0, 0⟩) := by
  unfold Takes
  decide +kernel

/-- The module at cycle P with a pen, its one fold and the recorded states of the next tick as given. -/
def requested (p : Pen) (f : Fold) (l : List PowRec) (m : ModState := .run) : State :=
  { atQ with
    mode := m
    arr := { atQ.arr with pens := [p], folds := [(0, { f with role := .active })] }
    hub := { atQ.hub with nextPower := l, shedding := m == .shed } }

theorem quiet_requested (p : Pen) (f : Fold) (l : List PowRec) (hf : f.parFrame = false) : QuietTick (requested p f l) := by
  have hs : atQ.hub.fw.st ≠ .scheduled := by decide +kernel
  have ha : atQ.ldr.act ≠ .pending := by decide +kernel
  refine ⟨⟨by rfl, hs⟩, rfl, ha, rfl, rfl, pensApart_one rfl, ?_⟩
  intro x hx
  obtain rfl : x = (0, { f with role := .active }) := List.mem_singleton.1 hx
  have h : 0 < atQ.rf .faultcfg 0 3 0 := by decide +kernel
  exact ⟨hf, h⟩

/-- A quiet tick with records, one of a bank last; a pen that rejoins, one in RETAIN that wakes, one in ON that closes; a shed pen is BUSY. -/
theorem witness_PowerRequests_ticks :
    (∃ p f, QuietTick (requested p f [⟨0, 1, 0, 0⟩, ⟨2, 0, 0, 31⟩, ⟨1, 1, 0, 0⟩]) ∧
      (requested p f [⟨0, 1, 0, 0⟩, ⟨2, 0, 0, 31⟩, ⟨1, 1, 0, 0⟩]).hub.nextPower.getLast? = some ⟨1, 1, 0, 0⟩ ∧
      (requested p f [⟨0, 1, 0, 0⟩, ⟨2, 0, 0, 31⟩, ⟨1, 1, 0, 0⟩]).bankOf 0 = some 0) ∧
    (let s := requested { pen1 with substPend := true, rejoinOk := true, substDone := true } { power := .on, hurdle := .opened } []
     ∃ p ∈ s.arr.pens, p.substPend = true ∧ s.substBusy p = false ∧ p.rejoinOk = true ∧ p.substDone = true) ∧
    (∀ f ∈ [({ power := .retain } : Fold), { power := .on, hurdle := .opened }],
      let s := requested pen1 f []
      0 ∈ s.memberFolds pen1 ∧ (s.fold 0).role = .active ∧ ((s.fold 0).power = .retain ∨ (s.fold 0).power = .on ∧ (s.fold 0).hurdle = .opened)) ∧
    (let s := requested { pen1 with cfg := { cfg1 with shed := true } } { power := .retain } [] .shed
     let before := afterRecords s.hub.nextPower s
     (powerRecords (leBytes 4 (2 ^ 29)) = [⟨0, 2, 0, 0⟩]) ∧ powReserved ⟨0, 2, 0, 0⟩ = false ∧ s.mode = .shed ∧
     ∃ p, before.penAt 0 = some p ∧ p.recorded = .on ∧ p.unloaded = false ∧ p.cfg.shed = true) :=
  ⟨⟨pen1, {}, quiet_requested _ _ _ rfl, by decide +kernel, by decide +kernel⟩, by decide +kernel, by decide +kernel,
    by decide +kernel, by decide +kernel, rfl, ⟨_, rfl, by decide +kernel⟩⟩

/-- A firmware image's header and body, 256 bytes, with a SETVER, and its signature's 96 bytes. -/
def fwImage : List Byte :=
  leBytes 4 0x46575A49 ++ leBytes 2 1 ++ [0, 0] ++ leBytes 4 352 ++ leBytes 4 2 ++ [0, 0] ++ leBytes 2 0x256 ++ [0xB1, 1] ++ leBytes 2 1 ++
    leBytes 2 1 ++ List.replicate 230 0 ++ List.replicate 96 7

/-- The vendor's signature of the image verifies: Config's verification has no body, so this is assumed. -/
def FwSigned : Prop := Config.ecdsaOk Config.vendorKey (Config.sha384 (fwImage.take 256)) (fwImage.drop 256) = true

theorem runnable (s : State) (h : FwSigned) (hv : s.hub.fuses.ver = 0) : fwRunnable s fwImage = true := by
  have h1 : leAt fwImage 8 4 = 352 := by decide +kernel
  have h2 : fwImage.length = 352 := by decide +kernel
  unfold FwSigned at h
  unfold fwRunnable
  simp only [h1, h2, hv]
  simp [h]

theorem verified (s : State) (h : FwSigned) (hv : s.hub.fuses.ver = 0) : fwVerify s fwImage = true := by
  unfold fwVerify
  rw [runnable s h hv, Bool.and_true]
  decide +kernel

/-- An update session over the service port of so many bytes. -/
def updating (n : Nat) (chunks : Store (List Byte)) : UpdSession := ⟨true, List.replicate 48 0, n, 2, chunks⟩

/-- The bytes of the first chunk of a one-chunk image. -/
def chunk0 : List Byte := fwImage ++ List.replicate 3744 0

/-- A complete session's check fails where the digest is longer than any. -/
theorem imageErr_digest (n : Nat) (c : Store (List Byte)) :
    imageErr ⟨true, 0 :: Config.sha384 (sessionImage (updating n c)), n, 2, c⟩ = some stCheckFail := by
  unfold imageErr
  rw [if_pos]
  intro h
  exact absurd (congrArg List.length h) (by
    show (Config.sha384 (sessionImage (updating n c))).length ≠ (Config.sha384 (sessionImage (updating n c))).length + 1
    omega)

/-- It is good where the digest and the signature are. -/
theorem imageErr_good (n : Nat) (c : Store (List Byte))
    (h : Config.ecdsaOk Config.vendorKey (Config.sha384 ((sessionImage (updating n c)).take (n - 96)))
      ((sessionImage (updating n c)).drop (n - 96)) = true) :
    imageErr ⟨true, Config.sha384 (sessionImage (updating n c)), n, 2, c⟩ = none := by
  unfold imageErr
  rw [if_neg (fun hn => hn rfl), if_neg]
  show ¬ ((!(Config.ecdsaOk Config.vendorKey (Config.sha384 ((sessionImage (updating n c)).take (n - 96)))
    ((sessionImage (updating n c)).drop (n - 96)))) = true)
  rw [h]
  decide

theorem witness_FirmwareUpdate :
    (
      let data := List.replicate 48 0 ++ leBytes 4 352 ++ leBytes 4 2 ++ [BitVec.ofNat 8 false.toNat] ++ List.replicate 7 0
      (headerFine 0x20 0 data && served mid true 0x20) = true ∧ mid.hub.fuses.lc ≠ 3 ∧ mid.hub.fw.st ≠ .confirming ∧
      mid.hub.fw.session = none) ∧
    (
      let s := withFw { session := some (updating 352 []), st := .receiving } mid
      s.hub.fw.session = some (updating 352 []) ∧ (updating 352 []).svc = (svcAsk 0 []).svc ∧
      (updating 352 []).digest = List.replicate 48 0 ∧ ({ updating 352 [] with svc := false } : UpdSession).svc ≠ (svcAsk 0 []).svc) ∧
    (
      let x := updating 8192 []
      1 < chunkCount x.length ∧ Store.get x.chunks [] 1 = [] ∧ (List.replicate 4096 (0 : Byte)).length = 4096 ∧
      (Store.set x.chunks [] 1 chunk0).length ≠ chunkCount x.length ∧
      headerErr mid { x with length := 352 } chunk0 = none ∧ chunk0.length = 4096 ∧
      (Store.set ([] : Store (List Byte)) [] 0 chunk0).length = chunkCount 352) ∧
    (
      let s := withFw { session := some (updating 352 []), st := .verified, epoch := 0 } mid
      s.hub.fuses.lc ≠ 3 ∧ s.hub.fw.st = .verified ∧ s.actBusy = false ∧ ¬ 2 < s.fwVer.toNat ∧ s.present = false ∧
      s.frame.epoch.toNat < 1 ∧ 2 < ({ s with fwVer := 3 } : State).fwVer.toNat) ∧
    (
      let s := withFw { st := .scheduled } mid
      let u := { s with frame := {}, mode := .standby }
      u.hub.fw.st = .scheduled ∧ u.phase ≠ .loader ∧ u.ticks = false ∧ u.hub.fw.epoch = 0 ∧ u.hub.wipe = none) ∧
    (
      let s := { withFw { st := .scheduled } mid with phase := .loader }
      s.hub.fw.st = .scheduled ∧ s.phase = .loader) ∧
    (
      let s := withFw { st := .scheduled } atP
      s.tickDue = true ∧ s.rf .tickcfg 0 2 0 ≠ 4 ∧ s.frame.epoch.toNat + 1 < 2 ^ 48 ∧ s.hub.fw.epoch ≤ s.frame.epoch.toNat + 1 ∧
      s.phase ≠ .loader) ∧
    (
      let s := { withFw { st := .confirming, readyAt := some 5 } mid with regs := (mid.setReg .updGoodfr 0 0 2000000).regs }
      s.hub.fw.st = .confirming ∧ s.hub.fw.readyAt = some 5 ∧ s.rf .updHealth 0 31 30 ≠ 2 ∧
      s.setting 0x2C 4 ≤ (s.reg .updGoodfr).toNat ∧
      max (5 + 1000000000 * s.setting 0x28 4) s.frame.time ≤ 5 + 1000000000 * s.setting 0x30 4) := by
  decide +kernel

/-- A module in an early phase of its start-up. -/
def early (ph : Phase) (f : Firmware) (stuck : Bool) : State :=
  { phase := ph, mode := .starting, hub := { supply := .onA, fuses := { lc := 1 }, fw := f, stuck := stuck } }

theorem witness_StartUp (h : FwSigned) :
    ((early .rom { active := fwImage } false).hub.fw.swapDue = false ∧
      fwRunnable (early .rom { active := fwImage } false) (early .rom { active := fwImage } false).hub.fw.active = true) ∧
    ((early .rom { staging := fwImage, swapDue := true } false).hub.fw.swapDue = true ∧
      fwVerify (early .rom { staging := fwImage, swapDue := true } false) fwImage = true) ∧
    ((early .rom { active := fwImage, staging := [], swapDue := true } false).hub.fw.swapDue = true ∧
      fwVerify (early .rom { active := fwImage, staging := [], swapDue := true } false) [] = false ∧
      fwRunnable (early .rom { active := fwImage, staging := [], swapDue := true } false) fwImage = true) ∧
    ((early .rom {} false).hub.stuck = false ∧ (early .rom {} true).hub.stuck = true ∧ (early .rom {} true).phase = .rom ∧
      (early .rom {} true).hub.fw.backDue = none ∧ fwRunnable (early .rom { active := fwImage } true) fwImage = true) ∧
    (∃ v r, v = fwSetVer fwImage ∧ chooseSlot fwImage #v[.good v 1 r, .erased] = some (v, 1, r, 0) ∧
      r.num 0x20 1 = 0 ∧ (early .firmware { active := fwImage } false).tampered = false ∧
      (early .firmware { active := fwImage } false).hub.fw.fellBack = none ∧
      (early .firmware { active := fwImage } false).hub.settings.slots = Vector.replicate 2 .erased) ∧
    (
      let s := { early .standby {} false with mode := .standby }
      s.phase = .standby ∧ s.mode = .standby ∧ s.arr.pens = [] ∧ s.ldr.inForce = none ∧ s.ldr.load = none ∧
      s.ldr.act = .idle ∧ s.hub.subst = none ∧ s.hub.waiting = [] ∧ s.hub.nextPower = [] ∧ s.rf .tickcfg 0 2 0 = 0 ∧
      s.frame.rxEpoch = none) := by
  refine ⟨⟨rfl, runnable _ h rfl⟩, ⟨rfl, verified _ h rfl⟩, ⟨rfl, by decide +kernel, runnable _ h rfl⟩,
    ⟨rfl, rfl, rfl, rfl, runnable _ h rfl⟩, ⟨fwSetVer fwImage, {}, rfl, ?_, ?_⟩, ?_⟩
  · decide +kernel
  · decide +kernel
  · decide +kernel

theorem witness_StartUp_supplied (ph : Phase) (f : Firmware) (b : Bool) :
    (early ph f b).hub.supply ≠ .off ∧ (early ph f b).hub.wipe = none ∧ (∀ pf : Fin 272, ((early ph f b).fold pf).goal = none) ∧
    ({ early .rom f b with hub := {} } : State).phase = .rom ∧ ({ early .rom f b with hub := {} } : State).hub.supply = .off ∧ ((0 : Fin 4).val, 5) ∉ ((early ph f b).bank 3).soft :=
  ⟨by simp [early], rfl, fun _ => rfl, rfl, rfl, List.not_mem_nil⟩

/-- A fallback that a watchdog owes and one that its own reset runs, and a halted module. -/
theorem witness_StartUp_fallback (h : FwSigned) :
    (let s := (early .rom { active := [], staging := fwImage, backDue := some 2 } false).setReg .rstcause 0 0 0x30000000
     s.phase = .rom ∧ s.mode = .starting ∧ s.hub.stuck = false ∧ s.hub.fw.backDue = some 2 ∧ s.hub.supply ≠ .off ∧ s.hub.wipe = none ∧
     s.rf .rstcause 0 31 28 ≠ 5) ∧
    (let s := (early .rom { active := [], staging := fwImage, backDue := some 3 } false).setReg .rstcause 0 0 0x50000001
     s.rf .rstcause 0 31 28 = 5 ∧ s.hub.fw.staging = fwImage) ∧
    fwVerify ((early .rom { active := [], staging := fwImage, backDue := some 3 } false).setReg .rstcause 0 0 0x50000001) fwImage = true ∧
    ({ early .rom {} false with mode := .halted } : State).mode = .halted :=
  ⟨by decide +kernel, by decide +kernel, verified _ h rfl, rfl⟩

/-! ### Supplies, thermal limits, presence, spares -/

/-- A module supplied from VIN_A with VIN_B qualified or not. -/
def fed (y : Supply) (b : Word) (s : State) : State :=
  { s.setReg .supStatus 0 0 b with hub := { s.hub with supply := y } }

theorem witness_ResetsAndSupplies :
    mid.hub.supply ≠ .off ∧ State.reset.hub.supply = .off ∧ mid.fwRuns = true ∧ mid.mode ≠ .off ∧
    (
      let s := fed .onA 0x60000000 mid
      s.hub.supply ≠ .off ∧ bit (s.reg .supStatus) (if true then 28 else 29) = false ∧ s.hub.supply = (if false then .onB else .onA) ∧
      bit (s.reg .supStatus) (if false then 28 else 29) = true ∧ bit (s.reg .supStatus) (if false then 29 else 28) = false) ∧
    (
      let s := fed .onA 0x70000000 mid
      bit (s.reg .supStatus) (if true then 28 else 29) = true ∧ s.hub.supply = (if true then .onA else .onB) ∧
      bit (s.reg .supStatus) (if false then 28 else 29) = true ∧ s.hub.supply = (if false then .onB else .onA) ∧
      bit (s.reg .supStatus) (if false then 29 else 28) = true ∧ bit (s.reg .supStatus) 29 = true) ∧
    (
      let s := fed .onB 0xB0000000 mid
      s.hub.supply = .onB ∧ bit (s.reg .supStatus) 29 = true ∧ s.hub.supply = (if true then .onB else .onA) ∧
      bit (s.reg .supStatus) (if true then 29 else 28) = true) := by
  decide +kernel

theorem witness_ResetsAndSupplies_same :
    sameSample false (({ phase := .rom, mode := .starting, hub := { supply := .onB } } : State).setReg .rstcause 0 0 0x10000000) = true ∧
    sameSample false (fed .onB 0x50000000 mid) = false := by
  decide +kernel

/-- A module whose sensor 272 has a reading to come. -/
def warmed (v : Half) (s : State) : State := s.setReg .thermTemp 272 0 (BitVec.ofNat 32 v.toNat)

theorem sampled_one (v : Half) (s : State) : Sampled [(272, v)] s (warmed v s) := by
  refine ⟨?_, ?_, ?_, rfl⟩
  · intro x hx
    rw [List.mem_singleton] at hx
    subst hx
    exact reg_setReg_self _ _ _ _ _
  · intro i hi
    simp only [List.map_cons, List.map_nil, List.mem_singleton] at hi
    exact reg_setReg_elem s _ (by decide) (by decide) i.isLt (by decide) (fun h => hi (Fin.ext h.1))
  · intro n hn i hi j hj
    exact reg_setReg_name s _ (by decide) (by decide) hi hj (fun h => hn (by rw [h]; simp))

theorem witness_ThermalAndLink :
    (mid.mode ≠ .off ∧ mid.hub.supply ≠ .off ∧ mid.mode ≠ .halted ∧ mid.rf .thermStatus 0 31 30 = 0 ∧ mid.fwRuns = true ∧
      mid.running = true ∧ bit (mid.reg .usbStatus) 31 = false) ∧
    hottest (warmed 2239 mid) = some (2239, 272) ∧ hottest (warmed 2240 mid) = some (2240, 272) ∧
    hottest (warmed 2368 mid) = some (2368, 272) ∧ hottest (warmed 2480 mid) = some (2480, 272) ∧
    hottest (warmed 2159 mid) = some (2159, 272) ∧
    (mid.setReg .thermStatus 0 0 0x40000000).rf .thermStatus 0 31 30 = 1 ∧
    (
      let s := mid.setReg .thermStatus 0 0 0x800008EF
      s.rf .thermStatus 0 31 30 = 2 ∧ reading (s.reg .thermStatus) < 143 * 16) ∧
    (
      let s := mid.setReg .usbStatus 0 0 0xF0000000
      bit (s.reg .usbStatus) 31 = true ∧ s.running = true ∧ ({ s with mode := .ready } : State).running = false) := by
  decide +kernel

theorem witness_PresenceAndTamper :
    mid.timesHolds = true ∧ mid.hub.pres.keyHeld = false ∧ mid.hub.pres.pinHeld = false ∧ mid.present = false ∧
    mid.tampered = false ∧ mid.fwRuns = true ∧ mid.mode ≠ .off ∧ (attended mid).present = true ∧
    (
      let s := { mid with hub := { (mid : State).hub with pres := { keyHeld := true, keySince := some 7, pinHeld := true, pinSince := some 8 } } }
      (if true then s.hub.pres.keySince else s.hub.pres.pinSince) = some 7 ∧
      (if false then s.hub.pres.keySince else s.hub.pres.pinSince) = some 8) ∧
    ({ mid with hub := { (mid : State).hub with lid := true } } : State).tampered = true := by
  decide +kernel

theorem witness_PresenceAndTamper_wipes :
    wipingNow.tampered = false ∧ wipingNow.fwRuns = true ∧ wipingNow.mode ≠ .off ∧ wipingNow.wiping = true ∧ mid.hub.wipe = none := by
  decide +kernel

/-- The running module whose fold 0 a check has found failed, with fold 1 as its alternate or no alternate, and a substitution. -/
def broken (alt : Option Nat) (x : Option Subst) : State :=
  { mid with
    arr := { (mid : State).arr with
      failed := [0]
      folds := [(0, { power := .on, role := .active, hurdle := .opened }), (1, { role := .spare, power := .retain })] }
    ldr := { (mid : State).ldr with inForce := ((mid : State).ldr.inForce).map fun f => { f with reloc := [(0, alt)] } }
    hub := { (mid : State).hub with subst := x } }

theorem witness_SpareSubstitution :
    (
      let s := broken (some 1) none
      (0 : Nat) ∈ s.arr.failed ∧ s.penOfFold 0 = some pen1 ∧ s.beingReplaced pen1.cfg.first = false ∧ s.hub.subst = none ∧
      s.alternate (s.fold 0).lf = some 1 ∧ (5 : Nat) ∉ s.arr.failed) ∧
    PensApart (broken (some 1) none) ∧ PensApart (broken none none) ∧
    ((0 : Nat) ∈ (broken none none).arr.failed ∧ (broken none none).penOfFold 0 = some pen1 ∧
      (broken none none).alternate ((broken none none).fold 0).lf = none) ∧
    (
      let s := broken (some 1) (some ⟨7, 9, 3, 100, #v[2, 3, 4]⟩)
      (0 : Nat) ∈ s.arr.failed ∧ s.penOfFold 0 = some pen1 ∧ s.hub.subst.isSome = true) ∧
    (
      let x : Subst := ⟨0, 0, 1, 100, #v[2, 3, 4]⟩
      let s := broken (some 1) (some x)
      s.hub.waiting = [] ∧ s.penOf x.lf = some pen1 ∧ x.spare < 272 ∧ x.pf ≠ x.spare ∧ pen1.cfg.count = 1) ∧
    (
      let p : Pen := { pen1 with cfg := { cfg1 with count := 2, width := 2 } }
      let s := broken (some 2) (some ⟨1, 1, 2, 100, #v[2, 3, 4]⟩)
      let u := { s with arr := { s.arr with pens := [p] } }
      u.penOf 1 = some p ∧ p.cfg.count ≠ 1 ∧ copySource u p 1 = some 0) := by
  refine ⟨by decide +kernel, pensApart_one (p := pen1) rfl, pensApart_one (p := pen1) rfl, ?_⟩
  decide +kernel

/-- HUB.SUBST reads a substitution in progress of the last fold. -/
theorem witness_SpareSubstitution_reads :
    ∃ x, (broken (some 1) (some ⟨271, 9, 3, 100, #v[2, 3, 4]⟩)).hub.subst = some x ∧ x.pf < 272 := ⟨_, rfl, by decide⟩

/-! ### The host's window, the DMA channels, events, invariants -/

/-- Words that no error has hit are good everywhere. -/
theorem rangeGood_none {s : State} (h : s.ecc = []) (a n : Nat) : RangeGood s a n := by
  intro x _ _
  unfold State.eccOf
  rw [h]
  rfl

/-- The bytes of banks with free ports are free. -/
theorem rangeFree_bank {s : State} (h : ∀ b < 272, PortFree s b) (hq : s.quiet = false) (a n : Nat) (ha : a + n ≤ 0x08800000) :
    RangeFree s a n :=
  ⟨ha, fun x _ hx => ⟨h _ (by omega), by rw [hq]; rfl⟩⟩

/-- The open banks of a module without moves, whatever else its one fold holds, have free ports. -/
theorem ports_free {s : State} (hb : s.banks = openBanks) (hf : ∀ x ∈ s.arr.folds, x.2.moves = []) :
    ∀ b < 272, PortFree s b := by
  intro b hlt
  have hq := banksQuiet_of (s := s) (by rw [hb]; decide +kernel) hf b
  refine ⟨?_, hq⟩
  have ho : ∀ b : Fin 272, (Store.get openBanks {} b).failed = false ∧ (Store.get openBanks {} b).hurdle = .opened := by decide +kernel
  unfold State.bankShut State.bank
  rw [hb, (ho ⟨b, hlt⟩).1, (ho ⟨b, hlt⟩).2]
  rfl

theorem witness_HostWindow :
    ProbesOff (withFold {}) ∧
    RangeFree (withFold {}) (0x087FFFF8 / 8 * 8) (8 * ((0x087FFFF8 + 8 + 7) / 8 - 0x087FFFF8 / 8)) ∧
    RangeFree (withFold {}) (3 / 8 * 8) (8 * ((3 + 4096 + 7) / 8 - 3 / 8)) ∧
    RangeGood (withFold {}) (3 / 8 * 8) (8 * ((3 + 4096 + 7) / 8 - 3 / 8)) ∧
    (freeTag (withFold {}) 7104 64).isSome = true ∧
    freeTag { withFold {} with dw := { (withFold {}).dw with tags := (List.range 64).map fun t => (7104 + t, some { pkt := {} }) } } 7104 64 = none ∧
    RangeFree { withFold {} with dw := { (withFold {}).dw with tags := (List.range 64).map fun t => (7104 + t, some { pkt := {} }) } } (3 / 8 * 8)
      (8 * ((3 + 4096 + 7) / 8 - 3 / 8)) ∧
    (0x08800000 : Nat) ≤ (0x08800000 : BitVec 28).toNat ∧
    ((0x087FFFF8 : BitVec 28).toNat % 8 = 0 ∧ (0x087FFFF8 : BitVec 28).toNat < 0x08800000 ∧
      mid.bankShut ((0x087FFFF8 : BitVec 28).toNat / 0x80000) = true) ∧
    ([1] : List Byte) ≠ [] ∧ (List.replicate 8 (1 : Byte)).length = 8 :=
  ⟨by unfold ProbesOff; decide +kernel, rangeFree_bank (ports_free rfl (by decide +kernel)) (by decide +kernel) _ _ (by decide),
    rangeFree_bank (ports_free rfl (by decide +kernel)) (by decide +kernel) _ _ (by decide), rangeGood_none rfl _ _, by decide +kernel, by decide +kernel,
    rangeFree_bank (ports_free rfl (by decide +kernel)) (by decide +kernel) _ _ (by decide), by decide +kernel⟩

/-- A descriptor: OP, control, length, host address, pasture addresses, operand. -/
def descriptor (op ctl len paddr paddr2 operand : Nat) : List Byte :=
  leBytes 1 op ++ leBytes 1 ctl ++ [0, 0] ++ leBytes 4 len ++ leBytes 8 0x1000 ++ leBytes 4 paddr ++ leBytes 4 paddr2 ++ leBytes 8 operand

/-- The running module with open banks and a descriptor queued on channel 7, its channel's descriptors in progress as given. -/
def queued (s : State) (runs : List DmaRun) : State :=
  { (s.setReg .dmaCtrl 7 0 0x80000000).setReg .dmaTail 7 0 15 with
    host := { s.host with dma := [(7, { ring := ⟨true, 0x2000, 16⟩, runs := runs })] } }

/-- A descriptor in progress on channel 7 that has issued both its words and waits for the second. -/
def inFlight (op : Nat) : DmaRun :=
  { err := 0, irq := true, op := op, haddr := 0x1000, paddr := 8, paddr2 := 64, words := 2, sent := 2, taken := 16
    reqs := [⟨6656 + 56 * 7, 1, false⟩] }

/-- The module with that descriptor, its request holding its tag. -/
def asking (op : Nat) (type : BitVec 5) : State :=
  { queued (withFold {}) [inFlight op] with dw := { tags := [(7048, some { pkt := { net := .req, type := type, src := 288, dst := 2, unit := 6, tag := 7048 } })] } }

/-- What comes back. -/
def dmaReply (type : BitVec 5) : Pkt :=
  { net := .rsp, type := type, dst := 288, src := 2, unit := 6, tag := 7048, body := { payload := [1], err := 2 } }

theorem witness_DmaDescriptors :
    (∀ x ∈ [(descriptor 0 1 16 0x087FFFF0 0 0, 0), (descriptor 1 0 16 8 0 0, 1), (descriptor 2 2 16 0 16 0, 2),
        (descriptor 3 0 8 0 0 5, 3), (descriptor 4 0 8 0 0 5, 4), (descriptor 5 0 8 0 0 5, 5), (descriptor 6 0 8 0 0 5, 6),
        (descriptor 7 0 512 0 0 0, 7), (descriptor 7 0 512 (2047 * 512) 0 0, 7), (descriptor 7 0 512 271 0 0, 7)],
      MayRun (queued (withFold {}) []) 7 x.1 x.2 ∧ (dmaDesc x.1).length ≤ 512) ∧
    ((dmaDesc (descriptor 7 0 512 0 0 0)).paddr % 512 = 0 ∧ ((queued (withFold {}) []).fold 0).hurdle = .opened ∧
      (queued (withFold {}) []).badRows 0 0 = 0 ∧ ((queued (withFold {}) []).fold 271).hurdle ≠ .opened) ∧
    ((dmaDesc (descriptor 0 0 12 0 0 0)).bad = true ∧ dmaMayStart (queued (withFold {}) []) 7 (dmaDesc (descriptor 0 0 12 0 0 0)) = true) ∧
    (
      let d := dmaDesc (descriptor 0 0 16 0x089FFFF8 0 0)
      d.bad = false ∧ d.range = true ∧ dmaMayStart (queued (withFold {}) []) 7 d = true) ∧
    dmaMayStart mid 7 (dmaDesc (descriptor 0 0 16 0 0 0)) = false ∧ dmaMayStart (queued (withFold {}) []) 7 (dmaDesc []) = true ∧
    (
      let s := queued ((withFold {}).setReg .msixCtrl 0 0 0) [{ err := 6, irq := false }]
      (s.dma 7).runs = [{ err := 6, irq := false }] ∧ ({ err := 6, irq := false } : DmaRun).ended = true ∧ 0 < (s.dma 7).ring.size ∧
      (s.dma 7).ring.size ≤ 4096 ∧ s.inD3 = false ∧
      bit (s.reg .msixCtrl (s.rf .dmaCtrl 7 5 0)) 0 = false ∧ inHoldoff (s.rf .dmaCtrl 7 5 0) s = false) ∧
    (inFlight 1).ended = false ∧
    (bit (0x80000000 : Word) 31 = true ∧ bit (mid.reg .dmaCtrl 7) 31 = false ∧ bit (0 : Word) 31 = false) := by
  unfold MayRun
  and_intros <;> decide +kernel

theorem witness_DmaDescriptors_answers :
    ∀ x ∈ [((1 : Nat), (1 : BitVec 5), (2 : BitVec 5)), (4, 4, 3), (2, 1, 2), (0, 2, 1), (0, 2, 6)],
      AnswersDma (asking x.1 x.2.1) (dmaReply x.2.2) 7 0 (inFlight x.1) ⟨7048, 1, false⟩
        { net := .req, type := x.2.1, src := 288, dst := 2, unit := 6, tag := 7048 } ∧
      (inFlight x.1).reqs = [⟨7048, 1, false⟩] ∧ 8 * 1 + 8 ≤ (inFlight x.1).taken ∧ (inFlight x.1).words ≤ (inFlight x.1).sent ∧
      (dmaReply x.2.2).body.err = 2 := by
  unfold AnswersDma NotQueued
  decide +kernel

/-- The running module with source 1,279 recorded and signalled, the ring's head and tail as given. -/
def listening (head tail : Nat) : State :=
  ((((mid.setReg .msixCtrl 63 0 0).setReg .evtSrc 1279 0 0xC000003F).setReg .ringcfg 0 0 0x80000000).setReg .ringhead 0 0 (BitVec.ofNat 32 head)).setReg
    .ringtail 0 0 (BitVec.ofNat 32 tail)

theorem witness_HostEvents :
    (∀ tail ∈ [0, 15, 16],
      let s := listening 15 tail
      s.rf .ringhead 0 11 0 = 15 ∧ s.rf .ringhead 0 11 0 < s.evt.size ∧ s.evt.size ≤ 4096 ∧ bit (s.reg .evtSrc 1279) 31 = true ∧
      bit (s.reg .ringcfg) 31 = true ∧ bit (s.reg .evtSrc 1279) 30 = true ∧ s.inD3 = false ∧
      bit (s.reg .msixCtrl (fld (s.reg .evtSrc 1279) 5 0)) 0 = false ∧ inHoldoff (fld (s.reg .evtSrc 1279) 5 0) s = false ∧
      s.evt.batch = none) ∧
    (15 + 1) % (listening 15 16).evt.size = (listening 15 16).rf .ringtail 0 11 0 % (listening 15 16).evt.size ∧
    (15 + 1) % (listening 15 15).evt.size ≠ (listening 15 15).rf .ringtail 0 11 0 % (listening 15 15).evt.size ∧
    (8 < fld (9 : Word) 3 0 ∧ fld (0x80000008 : Word) 3 0 ≤ 8 ∧ bit (0x80000008 : Word) 31 = true ∧
      bit (mid.reg .ringcfg) 31 = false ∧ bit ((listening 0 0).reg .ringcfg) 31 = true) ∧
    (bit ({ heldOff := 0x8000000000000000 } : Events).heldOff 63 = true ∧ mid.inD3 = false ∧ bit ((listening 0 0).reg .msixCtrl 63) 0 = false ∧
      bit mid.evt.heldOff 63 = false) ∧
    (
      let s := mid.setReg .msixPba 1 0 0x80000000
      bit (1 : Word) 0 = true ∧ bit (0 : Word) 0 = false ∧ bit (s.reg .msixPba (63 / 32)) (63 % 32) = true ∧ inHoldoff 63 s = false) ∧
    (
      let s := { mid with cairn := { recs := [⟨5, false, []⟩] } }
      s.cairn.recs.find? (·.index == (5 : Word).toNat) = some ⟨5, false, []⟩ ∧
      s.cairn.recs.find? (·.index == (6 : Word).toNat) = none) := by
  decide +kernel

theorem witness_StepKeepsMemoryForm :
    ∃ t, ({ mid with pending := [.holdupCharged] } : State).memWf = true ∧
      step { mid with pending := [.holdupCharged] } = .next t :=
  ⟨_, by decide +kernel, rfl⟩

theorem witness_StepKeepsCairnBounds :
    ∃ t, CairnBounded { mid with pending := [.holdupCharged] } ∧ step { mid with pending := [.holdupCharged] } = .next t :=
  ⟨_, by unfold CairnBounded; decide +kernel, rfl⟩

theorem witness_LifeCycleOnlyByCommand :
    ∃ t, exec (.lifecycleSet (svcReq 0x41 0 [1, 0, 0, 0])) (inCycle 2 wipingNow) = .next t ∧
      t.hub.fuses.lc ≠ (inCycle 2 wipingNow).hub.fuses.lc :=
  ⟨_, rfl, by decide +kernel⟩

/-! ### Worked examples of the spec -/

/-- R93: an ST to window offset 32 for all PEs is 0x02A0. -/
theorem test_decode_st : decodeArray 0 0x02A0 0 0 = .instr (.st 0 0 32) 1 := by decide +kernel

/-- R98: FLAG T ← T XOR 1 with COND 0b01 is 0x14FB. -/
theorem test_decode_flag : decodeArray 0 0x14FB 0 0 = .instr (.flagXor 0 1 .t .one) 1 := by decide +kernel

/-- R123: 0x0E22 with the address 0x040 is DLD S2, 0x081A is ADD S3 ← S3 + S2. -/
theorem test_decode_dld : decodeArray 0 0x0E22 0x0040 0 = .instr (.dld 0 0 2 false 0x40) 2 ∧
    decodeArray 0 0x081A 0 0 = .instr (.seqAdd 0 0 3 2) 1 := by decide +kernel

/-- The example of R123: D-space word 0x040 holds 5, S2 and S3 hold 1 and 10. -/
def loadExample : State :=
  (withFold { seq := { core := { s := #v[0, 0, 1, 10, 0, 0, 0, 0] } } }).setDword 0 0x40 5

/-- What an outcome's state gives for S2 and S3 of fold 0. -/
def s2s3 (o : Host.Outcome State Fault Refusal) : Option (Half × Half) :=
  match o with
  | .next t => some ((t.seq 0).core.s[2], (t.seq 0).core.s[3])
  | _ => none

/-- R123: the ADD in the delay cycle adds the old S2, and the load lands at its end. -/
theorem test_delay_cycle :
    s2s3 (exec (.dld 0 0 2 false 0x40) loadExample) = some (1, 10) ∧
    (match exec (.dld 0 0 2 false 0x40) loadExample with
      | .next t => s2s3 (exec (.seqAdd 0 0 3 2) t)
      | _ => none) = some (5, 11) := by decide +kernel

/-- R98: FLAG T ← T XOR 1 with COND 0b01 inverts T where A is 1. -/
theorem test_flag_xor :
    (match exec (.flagXor 0 1 .t .one) (running {} { a := 6, t := 3 }) with
      | .next t => some (t.fold 0).pe.t
      | _ => none) = some 5 := by decide +kernel

/-- IEEE 754: 1 ÷ 3 in binary32 to nearest is 0x3EAAAAAB. -/
theorem test_third : (fpDiv binary32 ⟨.rne, false, false⟩ (Fp.decode binary32 false 0x3F800000) (Fp.decode binary32 false 0x40400000)).1 =
    0x3EAAAAAB := by decide +kernel

end Sys2Proof.Tests
end

/-! ### What is on its way changes nothing in the banks -/

namespace Sys2Proof.Machine

/-- What the banks hold: the words, their ECC standings, the ports. -/
def State.pasture (s : State) : List Host.Cell × Store Ecc × Store Bank := (s.mem, s.ecc, s.banks)

variable (s : State)

theorem mem_of_pasture {s t : State} (h : t.pasture = s.pasture) : t.mem = s.mem := congrArg Prod.fst h

theorem ecc_of_pasture {s t : State} (h : t.pasture = s.pasture) : t.ecc = s.ecc := congrArg (fun x => x.2.1) h

theorem bank_of_pasture {s t : State} (h : t.pasture = s.pasture) (b : Nat) : t.bank b = s.bank b :=
  congrArg (fun x : List Host.Cell × Store Ecc × Store Bank => Store.get x.2.2 {} b) h

@[simp] theorem pasture_probeHit (n : Nat) (w : Word × Word × Word) : (probeHit n w s).pasture = s.pasture := by
  have trace : ∀ t : State, (probeTrace n w t).pasture = t.pasture := fun t => by
    simp [probeTrace, State.pasture]
  simp only [State.pasture, Prod.mk.injEq] at trace ⊢
  unfold probeHit
  dsimp only
  (repeat' split) <;> simp [trace]

/-- A head flit that a probe sees is a match or nothing to it (R276). -/
theorem probePacket_cases (n i : Nat) (p : Pkt) : probePacket n i p s = s ∨ ∃ w, probePacket n i p s = probeHit n w s := by
  unfold probePacket
  extract_lets ctl d0 d1 m m0
  split
  · exact .inr ⟨_, rfl⟩
  · exact .inl rfl

@[simp] theorem pasture_probePacket (n i : Nat) (p : Pkt) : (probePacket n i p s).pasture = s.pasture := by
  obtain h | ⟨w, h⟩ := probePacket_cases s n i p <;> simp [h]

@[simp] theorem pasture_bridgeRetries (n f : Nat) : (bridgeRetries n f s).pasture = s.pasture := rfl

@[simp] theorem pasture_passRouters (t : TabSet) (d k n i : Nat) (p : Pkt) : (passRouters t d k n i p s).pasture = s.pasture := by
  induction k generalizing n i p s with
  | zero => rfl
  | succ k ih =>
    unfold passRouters
    dsimp only
    (repeat' split) <;> simp [ih]

/-- A packet on its way changes no word, no standing and no port. -/
@[simp] theorem pasture_travel (p : Pkt) : (travel p s).pasture = s.pasture := pasture_passRouters s _ _ _ _ _ _

/-! ### A word stored at a bank -/

/-- What is sent out changes nothing in the banks. -/
theorem pasture_foldl_emit {α : Type} (l : List α) (o : α → Output) : (l.foldl (fun t x => t.emit (o x)) s).pasture = s.pasture :=
  foldl_keeps s State.pasture l _ fun _ _ => rfl

/-- Holders that are told of a line leave the bank but for its entry in the record (R262). -/
theorem invalLine_cases (b l : Nat) : invalLine b l s = s ∨ (invalLine b l s).pasture =
    (s.modBank b fun k => { k with holders := k.holders.filter fun x => !(x.1 == l) }).pasture := by
  unfold invalLine
  split
  · exact .inl rfl
  · exact .inr (pasture_foldl_emit _ _ _)

@[simp] theorem mem_invalLine (b l : Nat) : (invalLine b l s).mem = s.mem := by
  obtain h | h := invalLine_cases s b l
  · rw [h]
  · exact (mem_of_pasture h).trans rfl

@[simp] theorem ecc_invalLine (b l : Nat) : (invalLine b l s).ecc = s.ecc := by
  obtain h | h := invalLine_cases s b l
  · rw [h]
  · exact (ecc_of_pasture h).trans rfl

@[simp] theorem waiting_invalLine (b l c : Nat) : ((invalLine b l s).bank c).waiting = (s.bank c).waiting := by
  obtain h | h := invalLine_cases s b l
  · rw [h]
  · rw [bank_of_pasture h, bank_modBank]
    split <;> rfl

@[simp] theorem mem_bankStore (b w : Nat) (v : Dword) : (bankStore b w v s).mem = memSetWord s.mem (wordAddr b w) v := by
  unfold bankStore
  dsimp only
  rw [mem_invalLine]
  split <;> rfl

@[simp] theorem ecc_bankStore (b w : Nat) (v : Dword) :
    (bankStore b w v s).ecc = Store.set s.ecc .good (b * 65536 + w % 65536) .good := by
  unfold bankStore
  dsimp only
  rw [ecc_invalLine]
  split <;> rfl

@[simp] theorem waiting_bankStore (b w c : Nat) (v : Dword) :
    ((bankStore b w v s).bank c).waiting = (s.bank c).waiting := by
  unfold bankStore
  dsimp only
  rw [waiting_invalLine]
  split
  · rw [bank_modBank]
    split <;> rfl
  · rfl

/-- A whole-word write asks nothing of the word it replaces (R229). -/
theorem bankWrite_whole (b w : Nat) (v : Dword) : bankWrite b w 0xFF v s = bankStore b w v s := if_pos rfl

/-! ### A port at which one access stands -/

theorem ownMove_of_arr {s t : State} (h : t.arr = s.arr) (b : Nat) : ownMove t b = ownMove s b := by
  simp [ownMove, ownRows, fold_of_arr h]

/-- The port of a bank once the second cycle of an access under way has passed (R216). -/
def readyPort (b : Nat) (s : State) : State := if (s.bank b).busy then secondCycle b s else s

@[simp] theorem mem_readyPort (b : Nat) : (readyPort b s).mem = s.mem := by
  unfold readyPort
  split <;> rfl

@[simp] theorem ecc_readyPort (b : Nat) : (readyPort b s).ecc = s.ecc := by
  unfold readyPort
  split <;> rfl

@[simp] theorem arr_readyPort (b : Nat) : (readyPort b s).arr = s.arr := by
  unfold readyPort
  split <;> rfl

@[simp] theorem quietScrub_readyPort (b c : Nat) : quietScrub (readyPort b s) c = quietScrub s c := by
  unfold readyPort
  split <;> rfl

@[simp] theorem bank_readyPort (b : Nat) : (readyPort b s).bank b = { s.bank b with busy := false } := by
  unfold readyPort
  split
  · simp [secondCycle, bank_modBank]
  · next h => rw [← Bool.eq_false_of_not_eq_true h]

/-- An access that finds nothing waiting goes as soon as the port is ready. -/
theorem portAccess_ready {b p urg w : Nat} (wr : Bool) (n : Nat) (hw : (s.bank b).waiting = []) (hm : ownMove s b = false) :
    portAccess b p urg w wr (n + 1) s = readyPort b s := by
  by_cases hb : (s.bank b).busy = true
  · have hready : secondCycle b s = readyPort b s := (if_pos hb).symm
    rw [portAccess, if_pos hb, hready]
    exact portAccess_free _ wr n (by simp [hw]) ((ownMove_of_arr (by simp) b).trans hm) (by simp)
  · rw [portAccess_free s wr (n + 1) hw hm (Bool.eq_false_of_not_eq_true hb), readyPort, if_neg hb]

/-- The only request at a port is the one it chooses. -/
theorem portChoice_alone {b : Nat} {x : Waiting} (hw : (s.bank b).waiting = [x]) (hm : ownMove s b = false) :
    ∃ k, portChoice s b [] = some (k, .req x) := by
  have hr : ownRows s b = [] := by simpa [ownMove] using hm
  have hx : settled s b [.req x] 1 (.req x) = .req x :=
    List.mem_singleton.mp (settled_mem s (List.mem_singleton_self (PortUser.req x)))
  exact ⟨(PortUser.rank s b (.req x)).1, by simp [portChoice, hw, hr, best, hx]⟩

/-- A ready port serves the only request at it, whatever its priority, when no scrub stands above it (R216 to R218). -/
theorem portCycle_alone {b : Nat} {x : Waiting} (hw : (s.bank b).waiting = [x]) (hm : ownMove s b = false)
    (hq : quietScrub s b = false) (hb : (s.bank b).busy = false) : portCycle b s = serveWord b x s := by
  obtain ⟨k, hk⟩ := portChoice_alone s hw hm
  simp [portCycle, hb, hk, portLow, hq, serveUser]

/-- A port that no longer holds a request has performed it. -/
theorem portUntil_empty {b c : Nat} (p : Pkt) (n : Nat) (hw : (s.bank b).waiting = []) : portUntil b p c n s = s := by
  cases n <;> simp [portUntil, hw]

/-- While the request waits and no scrub stands above it the port runs. -/
theorem portUntil_succ {b n : Nat} {x : Waiting} (hw : (s.bank b).waiting = [x]) (hq : quietScrub s b = false) :
    portUntil b x.pkt x.cycle (n + 1) s = portUntil b x.pkt x.cycle n (portCycle b s) := by
  simp [portUntil, hw, scrubsNow, hq]

/-- The only request at a port is served as soon as the port is ready; one access that ends it ends the run. -/
theorem portUntil_alone {b n : Nat} {x : Waiting} (hw : (s.bank b).waiting = [x]) (hm : ownMove s b = false)
    (hq : quietScrub s b = false) (hend : ((serveWord b x (readyPort b s)).bank b).waiting = []) :
    portUntil b x.pkt x.cycle (n + 2) s = serveWord b x (readyPort b s) := by
  have served : ∀ k, portUntil b x.pkt x.cycle (k + 1) (readyPort b s) = serveWord b x (readyPort b s) := fun k => by
    have hw' : ((readyPort b s).bank b).waiting = [x] := by simp [hw]
    have hm' : ownMove (readyPort b s) b = false := (ownMove_of_arr (by simp) b).trans hm
    rw [portUntil_succ _ hw' (by simp [hq]), portCycle_alone _ hw' hm' (by simp [hq]) (by simp), portUntil_empty _ _ _ hend]
  by_cases hb : (s.bank b).busy = true
  · have hready : portCycle b s = readyPort b s := by simp [portCycle, readyPort, hb]
    rw [portUntil_succ _ hw hq, hready, served]
  · have hready : readyPort b s = s := if_neg hb
    simpa only [hready] using served (n + 1)

/-- A request as it stands at its port when it has come (R219). -/
def arrivalOf (p : Pkt) (same : Bool) (s : State) : Waiting :=
  let k := s.bank p.dst.toNat
  { pkt := p, cycle := if same then k.arrivals else k.arrivals + 1, since := s.frame.time }

/-- A bank at whose port a request has come and no other waits. -/
def admitAlone (p : Pkt) (same : Bool) (s : State) : State :=
  let x := arrivalOf p same s
  s.setBank p.dst.toNat { s.bank p.dst.toNat with arrivals := x.cycle, waiting := [x] }

theorem waiting_admitAlone (p : Pkt) (same : Bool) :
    ((admitAlone p same s).bank p.dst.toNat).waiting = [arrivalOf p same s] := by
  simp [admitAlone, bank_setBank]

/-- A request that comes out of no queue to an open bank at which nothing waits stands alone at the port, which runs until it has been
performed (R257, R269). -/
theorem bankArrive_alone {p : Pkt} (same : Bool) (hb : p.dst.toNat < 272) (hnew : ∀ x ∈ s.queue p.dst.toNat p.net 5, x.pkt ≠ p)
    (hopen : s.bankShut p.dst.toNat = false) (hempty : (s.bank p.dst.toNat).waiting = []) :
    bankArrive p false same s =
      portUntil p.dst.toNat p (arrivalOf p same s).cycle portCycles (admitAlone p same s) := by
  have htake : takeLocal p.dst.toNat 5 p s = some s := atLocal_absent s fun x hx => beq_eq_false_iff_ne.mpr (hnew x hx)
  simp [bankArrive, Nat.not_le.mpr hb, htake, hopen, hempty, admitAlone, arrivalOf]

/-! ### The last word of a write -/

@[simp] theorem mem_ackIf (b : Nat) (p : Pkt) : (ackIf b p s).mem = s.mem := by
  unfold ackIf
  split <;> rfl

@[simp] theorem ecc_ackIf (b : Nat) (p : Pkt) : (ackIf b p s).ecc = s.ecc := by
  unfold ackIf
  split <;> rfl

@[simp] theorem bank_ackIf (b c : Nat) (p : Pkt) : (ackIf b p s).bank c = s.bank c := by
  unfold ackIf
  split <;> rfl

@[simp] theorem mem_leavePort (b : Nat) (x : Waiting) : (leavePort b x s).mem = s.mem := rfl

@[simp] theorem ecc_leavePort (b : Nat) (x : Waiting) : (leavePort b x s).ecc = s.ecc := rfl

@[simp] theorem waiting_leavePort (b : Nat) (x : Waiting) :
    ((leavePort b x s).bank b).waiting = (s.bank b).waiting.erase x := by
  simp [leavePort, bank_modBank]

/-- One access by which a waiting request stores a word with a good code and leaves its port. -/
def StoresAndLeaves (b w : Nat) (v : Dword) (x : Waiting) : Prop :=
  ∀ s : State, (serveWord b x s).mem = memSetWord s.mem (wordAddr b w) v ∧
    (serveWord b x s).ecc = Store.set s.ecc .good (b * 65536 + w % 65536) .good ∧
    ((serveWord b x s).bank b).waiting = (s.bank b).waiting.erase x

/-- A WRITE1 with every byte enabled is one whole-word access (R216, R229). -/
theorem storesAndLeaves_write1 {b : Nat} {v : Dword} {x : Waiting} (hnet : x.pkt.net = .req) (htype : x.pkt.type = 2)
    (hmask : x.pkt.bmask = 0xFF) (hv : x.pkt.body.payload = [v]) : StoresAndLeaves b x.pkt.word.toNat v x := by
  intro s
  have h : serveWord b x s = ackIf b x.pkt (bankStore b x.pkt.word.toNat v (leavePort b x s)) := by
    have hbytes : x.pkt.bmask = 255#8 := hmask
    simp [serveWord, writeOne, hnet, htype, hbytes, hv, operandOf, ← bankWrite_whole]
  simp [h]

/-- A WRITEB of one word is one whole-word access (R216, R229). -/
theorem storesAndLeaves_writeb {b : Nat} {v : Dword} {x : Waiting} (hnet : x.pkt.net = .data) (hlen : x.pkt.len = 0)
    (hdone : x.done = 0) (hv : x.pkt.body.payload = [v]) : StoresAndLeaves b x.pkt.word.toNat v x := by
  intro s
  have h : serveWord b x s = ackIf b x.pkt (leavePort b x (bankStore b x.pkt.word.toNat v s)) := by
    simp [serveWord, writeWord, hnet, hlen, hdone, hv, Waiting.rest, pktWords]
  simp [h]

/-! ### A word written through BAR2 -/

theorem wordAddr_of_lt {b w : Nat} (hw : w < 65536) : wordAddr b w = 8 * (b * 65536 + w) := by
  unfold wordAddr
  omega

/-- Byte `i` of the little-endian bytes of a number. -/
theorem getD_leBytes {n i : Nat} (x : Nat) (hi : i < n) : (leBytes n x).getD i 0 = BitVec.ofNat 8 (x / 256 ^ i) := by
  induction n generalizing i x with
  | zero => omega
  | succ n ih =>
    cases i with
    | zero => simp [leBytes]
    | succ i => rw [leBytes, List.getD_cons_succ, ih _ (by omega), Nat.div_div_eq_div_mul, Nat.pow_succ']

/-- Byte `i` of a word, put back in its place, holds the word's bits there and no others. -/
theorem getLsbD_byteInPlace (v : Dword) (i : Nat) {k : Nat} (hk : k < 64) :
    (BitVec.ofNat 64 ((BitVec.ofNat 8 (v.toNat / 256 ^ i)).toNat <<< (8 * i))).getLsbD k = (decide (k / 8 = i) && v.getLsbD k) := by
  have h256 : (256 : Nat) ^ i = 2 ^ (8 * i) := by rw [Nat.pow_mul]
  rw [BitVec.getLsbD_ofNat, BitVec.toNat_ofNat, Nat.testBit_shiftLeft, Nat.testBit_mod_two_pow, h256, Nat.testBit_div_two_pow]
  by_cases hi : k / 8 = i
  · have hlow : k - 8 * i < 8 := by omega
    have hat : k - 8 * i + 8 * i = k := by omega
    simp [hk, hi, hlow, hat, BitVec.getLsbD, show 8 * i ≤ k by omega]
  · by_cases hle : 8 * i ≤ k
    · simp [hi, show ¬ k - 8 * i < 8 by omega]
    · simp [hi, hle]

/-- The first bytes of a word, each at the address that follows the one before (R4). -/
def wordCells (a : Nat) (v : Dword) (n : Nat) : List (Nat × Byte) :=
  (List.range n).map fun i => (a + i, (leBytes 8 v.toNat).getD i 0)

/-- The first `n` bytes of a word enable `n` bytes of it and give their bits. -/
theorem wordPart_bits (q : Nat) (v : Dword) {n : Nat} (hn : n ≤ 8) :
    (∀ k < 8, (wordPart q (wordCells (8 * q) v n)).1.getLsbD k = decide (k < n)) ∧
    ∀ k < 64, (wordPart q (wordCells (8 * q) v n)).2.getLsbD k = (decide (k / 8 < n) && v.getLsbD k) := by
  induction n with
  | zero => simp [wordPart, wordCells]
  | succ n ih =>
    obtain ⟨hmask, hdata⟩ := ih (by omega)
    have hnext : wordPart q (wordCells (8 * q) v (n + 1)) =
        ((wordPart q (wordCells (8 * q) v n)).1 ||| (1#8 <<< n),
          (wordPart q (wordCells (8 * q) v n)).2 |||
            BitVec.ofNat 64 ((BitVec.ofNat 8 (v.toNat / 256 ^ n)).toNat <<< (8 * n))) := by
      have hword : (8 * q + n) / 8 = q := by omega
      have hbyte : (8 * q + n) % 8 = n := by omega
      rw [wordCells, List.range_succ, List.map_append, wordPart, List.foldl_append, ← wordPart, ← wordCells]
      simp only [List.map_cons, List.map_nil, List.foldl_cons, List.foldl_nil, hword, hbyte, if_true,
        getD_leBytes _ (Nat.lt_of_succ_le hn)]
    rw [hnext]
    refine ⟨fun k hk => ?_, fun k hk => ?_⟩
    · rw [BitVec.getLsbD_or, hmask k hk, BitVec.getLsbD_shiftLeft, BitVec.getLsbD_one]
      grind
    · rw [BitVec.getLsbD_or, hdata k hk, getLsbD_byteInPlace v n hk, ← Bool.and_or_distrib_right]
      grind

/-- The eight bytes of a word enable all of it and make it up. -/
theorem wordPart_whole (q : Nat) (v : Dword) : wordPart q (wordCells (8 * q) v 8) = (0xFF, v) := by
  obtain ⟨hmask, hdata⟩ := wordPart_bits q v (Nat.le_refl 8)
  refine Prod.ext (BitVec.eq_of_getLsbD_eq fun k hk => ?_) (BitVec.eq_of_getLsbD_eq fun k hk => ?_)
  · exact (hmask k hk).trans BitVec.getLsbD_allOnes.symm
  · rw [hdata k hk]
    simp [show k / 8 < 8 by omega]

/-- A whole word written through BAR2 is one whole-word store at its bank (R390). -/
theorem bar2Write_word {b w : Nat} (v : Dword) (hb : b < 272) (hw : w < 65536) :
    bar2Write (wordAddr b w) (leBytes 8 v.toNat) s = hostStore b w 0xFF v s := by
  have haddr := wordAddr_of_lt (b := b) hw
  have hcells : wordPart (b * 65536 + w) (wordCells (wordAddr b w) v 8) = (0xFF, v) := by rw [haddr, wordPart_whole]
  have hbytes : (leBytes 8 v.toNat).isEmpty = false := rfl
  have hone : (wordAddr b w + 8 + 7) / 8 - (b * 65536 + w) = 1 := by omega
  have hword : wordAddr b w / 8 = b * 65536 + w := by omega
  have hbank : (b * 65536 + w) / 65536 = b := by omega
  have hin : (b * 65536 + w) % 65536 = w := by omega
  unfold bar2Write
  rw [leBytes_length, ← wordCells]
  simp only [hbytes, hone, hword, hcells, hbank, hin, Nat.not_le.mpr hb, Bool.false_eq_true, if_false, List.range_one,
    List.foldl_cons, List.foldl_nil, Nat.add_zero]

/-- The bytes of a word touch no bank but its own. -/
theorem banksOf_word {b w c : Nat} (hw : w < 65536) (hc : c ∈ banksOf (wordAddr b w) 8) : c = b := by
  have haddr := wordAddr_of_lt (b := b) hw
  have h0 : wordAddr b w / 0x80000 = b := by omega
  have h7 : (wordAddr b w + 7) / 0x80000 = b := by omega
  simpa [banksOf, List.range_succ, h0, h7] using hc

/-- An access of the host to a bank whose scrub does not stand above it need not wait. -/
theorem quietWait_of_not_quietScrub {l : List Nat} (h : ∀ b ∈ l, quietScrub s b = false) : quietWait l s = s := by
  unfold quietWait
  rw [if_neg]
  simp +contextual [h]

end Sys2Proof.Machine

/-! ### R229 -/

namespace Sys2Proof.Claims

open Sys2Proof.Machine

/-- A word of a bank holds a value with a good code, and every other byte of the pasture is as before. -/
def WordStored (b w : Nat) (v : Dword) (s t : State) : Prop :=
  wordAt t b w = v ∧ t.eccOf b w = .good ∧ MemOutside s t b w 1

/-- A state with the memory and the standings that a store leaves has the word stored. -/
theorem wordStored_of_mem_ecc {b w : Nat} {v : Dword} {s t : State} (hmem : t.mem = memSetWord s.mem (wordAddr b w) v)
    (hecc : t.ecc = Store.set s.ecc .good (b * 65536 + w % 65536) .good) : WordStored b w v s t := by
  refine ⟨?_, ?_, fun a ha => ?_⟩
  · rw [wordAt, hmem, memWord_memSetWord]
  · rw [State.eccOf, hecc, Store.get_set_self]
  · rw [hmem, memByte_memSetWord_outside _ _ (by omega)]

/-- A request that arrives at a free port and stores its word in one access has it stored (R216, R217). -/
theorem wordStored_bankCmd {p : Pkt} {same : Bool} {s : State} {net : Net} {type : BitVec 5} {b w : Nat} {v : Dword}
    (h : AtBank s p net type b) (hx : ∀ x : Waiting, x.pkt = p → x.done = 0 → StoresAndLeaves b w v x) :
    WordStored b w v s (bankCmd net type p false same s) := by
  obtain ⟨rfl, rfl, rfl, hb, ⟨hopen, hempty, hown⟩, hquiet, hnew⟩ := h
  have hwait := waiting_admitAlone s p same
  obtain ⟨hmem, hecc, hleft⟩ := hx (arrivalOf p same s) rfl rfl (readyPort p.dst.toNat (admitAlone p same s))
  have hrun : bankCmd p.net p.type p false same s =
      serveWord p.dst.toNat (arrivalOf p same s) (readyPort p.dst.toNat (admitAlone p same s)) := by
    rw [bankCmd, if_pos (by simp), bankArrive_alone s same hb hnew hopen hempty]
    exact portUntil_alone (n := 8190) _ hwait hown hquiet (by rw [hleft, bank_readyPort, hwait, List.erase_cons_head])
  rw [hrun]
  exact wordStored_of_mem_ecc (by rw [hmem, mem_readyPort]; rfl) (by rw [hecc, ecc_readyPort]; rfl)

/-- A whole word that the host writes through BAR2 at a free port is stored (R229, R390). -/
theorem wordStored_hostStore {s : State} {b w : Nat} (v : Dword) (h : PortFree s b) :
    WordStored b w v s (hostStore b w 0xFF v s) := by
  obtain ⟨hopen, hempty, hown⟩ := h
  unfold hostStore
  dsimp only
  rw [if_neg (by simp [hopen]), if_pos rfl, bankWrite_whole]
  generalize ({ hostPkt s 4 (wordAddr b w) with type := 2, bmask := 0xFF, body := { payload := [v], flits := 2 } } : Pkt) = p
  have hway : (travel p s).pasture = s.pasture := pasture_travel s p
  rw [portCycles, portAccess_ready _ true 8191 (by rw [bank_of_pasture hway, hempty])
    ((ownMove_of_arr (arr_travel s p) b).trans hown)]
  exact wordStored_of_mem_ecc (by simp [mem_of_pasture hway]) (by simp [ecc_of_pasture hway])

/-- Settles O28: each of the writes comes down to one whole-word store at the bank, which asks nothing of the word it replaces. -/
theorem wordWriteOverError : Obligations.WordWriteOverError := by
  unfold Obligations.WordWriteOverError
  intro p same s b w v hw _
  refine ⟨?_, ?_, ?_, ?_⟩
  · rw [bankWrite_whole]
    exact wordStored_of_mem_ecc (mem_bankStore ..) (ecc_bankStore ..)
  · rintro rfl hv hmask h
    obtain ⟨hnet, htype, -⟩ := id h
    exact ⟨_, rfl, wordStored_bankCmd h fun x hx _ => by subst hx; exact storesAndLeaves_write1 hnet htype hmask hv⟩
  · rintro rfl hv hlen h
    obtain ⟨hnet, -⟩ := id h
    exact ⟨_, rfl, wordStored_bankCmd h fun x hx hdone => by subst hx; exact storesAndLeaves_writeb hnet hlen hdone hv⟩
  · intro hb hfree hquiet
    have haddr : (BitVec.ofNat 28 (wordAddr b w)).toNat = wordAddr b w := by
      rw [BitVec.toNat_ofNat, Nat.mod_eq_of_lt]
      have := wordAddr_of_lt (b := b) hw
      omega
    have hnow : quietWait (banksOf (wordAddr b w) 8) s = s :=
      quietWait_of_not_quietScrub s fun c hc => banksOf_word hw hc ▸ hquiet
    refine ⟨_, rfl, ?_⟩
    rw [haddr, leBytes_length, hnow, bar2Write_word s v hb hw]
    exact wordStored_hostStore v hfree

end Sys2Proof.Claims

/-! ### What time that passes changes -/

namespace Sys2Proof.Claims

open Sys2Proof.Machine

theorem Passed.refl (s : State) : Passed s s := ⟨le_rfl, rfl⟩

theorem Passed.trans {s u v : State} (hsu : Passed s u) (huv : Passed u v) : Passed s v := by
  obtain ⟨hle, hu⟩ := hsu
  obtain ⟨hle', hv⟩ := huv
  exact ⟨hle.trans hle', hv.trans (by rw [hu])⟩

/-- Taking samples moves `edge.samples` alone. -/
theorem passed_takeSamples (d : Nat) (s : State) : Passed s (takeSamples d s) := by
  unfold takeSamples
  dsimp only
  split
  · exact .refl s
  · exact ⟨le_rfl, rfl⟩

theorem passed_edgeCycle (s : State) : Passed s (edgeCycle s) := ⟨le_rfl, rfl⟩

theorem passed_clockOn (d : Nat) (s : State) : Passed s (clockOn d s) := ⟨Nat.le_add_right .., rfl⟩

theorem passed_ringCycles (n : Nat) (s : State) : Passed s (ringCycles n s) := by
  induction n generalizing s with
  | zero => exact .refl s
  | succ n ih => exact ((passed_edgeCycle s).trans (passed_clockOn 1 _)).trans (ih _)

theorem passed_passTime (d : Nat) (s : State) : Passed s (passTime d s) := by
  unfold passTime
  dsimp only
  split
  · exact (passed_takeSamples d s).trans (passed_ringCycles d _)
  · exact (((passed_takeSamples d s).trans (passed_ringCycles 1 _)).trans (passed_clockOn (d - 3) _)).trans
      (passed_ringCycles 2 _)

theorem time_ringCycles (n : Nat) (s : State) : (ringCycles n s).frame.time = s.frame.time + n := by
  induction n generalizing s with
  | zero => rfl
  | succ n ih =>
    have hone : (clockOn 1 (edgeCycle s)).frame.time = s.frame.time + 1 := rfl
    rw [ringCycles, ih, hone]
    omega

/-- The cycles left out and the three run in their place make up the whole time. -/
theorem time_passTime (d : Nat) (s : State) : (passTime d s).frame.time = s.frame.time + d := by
  unfold passTime
  dsimp only
  split
  case isTrue => rw [time_ringCycles, takeSamples_frame]
  case isFalse hlong =>
    have hskip (u : State) : (clockOn (d - 3) u).frame.time = u.frame.time + (d - 3) := rfl
    have hd : 3 < d := by
      by_contra h
      simp [Nat.le_of_not_lt h] at hlong
    rw [time_ringCycles, hskip, time_ringCycles, takeSamples_frame]
    omega

/-- Letting time pass up to a time does that and nothing else. -/
theorem passedUntil_advanceTime (t : Nat) (s : State) : PassedUntil t s (advanceTime t s) := by
  unfold advanceTime
  split
  · exact ⟨passed_passTime .., by rw [time_passTime]; omega⟩
  · exact ⟨.refl s, by omega⟩

end Sys2Proof.Claims

/-! ### Slots and sessions -/

namespace Sys2Proof.Machine

@[simp] theorem slot_setSlot (i j : Fin 3) (x : Slot) (s : State) :
    (s.setSlot i x).slot j = if i = j then x else s.slot j := by
  simp [State.slot, State.setSlot, Vector.getElem_set, Fin.ext_iff]

@[simp] theorem slot_setSession (x : Option (Bool × Fin 3 × Nat)) (j : Fin 3) (s : State) :
    (setSession x s).slot j = s.slot j := rfl

@[simp] theorem setSession_frame (x : Option (Bool × Fin 3 × Nat)) (s : State) : (setSession x s).frame = s.frame := rfl

@[simp] theorem eraseSlot_frame (i : Fin 3) (s : State) : (eraseSlot i s).frame = s.frame := rfl

@[simp] theorem slot_eraseSlot (i j : Fin 3) (s : State) : (eraseSlot i s).slot j = if i = j then {} else s.slot j :=
  slot_setSlot ..

/-- Closing a session and erasing a slot changes the slots and the session alone. -/
theorem setSession_eraseSlot_of_ldr {s u : State} (i : Fin 3) (h : u.ldr = s.ldr) : setSession none (eraseSlot i u) =
    { u with ldr := { s.ldr with slots := (setSession none (eraseSlot i u)).ldr.slots, session := none } } := by
  rw [← h]
  rfl

theorem slot_of_ldr {s t : State} (h : t.ldr = s.ldr) (j : Fin 3) : t.slot j = s.slot j :=
  congrArg (fun l : Loader => l.slots[j]) h

theorem dropSession_of_session {s : State} {svc : Bool} {i : Fin 3} {since : Nat} (h : s.ldr.session = some (svc, i, since)) :
    dropSession s = setSession none (eraseSlot i s) := by
  simp [dropSession, h]

theorem exec_sessionTimeout (s : State) : exec .sessionTimeout s = .next (sessionTimeout s) := rfl

/-- An open session times out 300 s after its last command, and is dropped then. -/
theorem sessionTimeout_of_session {s : State} {svc : Bool} {i : Fin 3} {since : Nat} (h : s.ldr.session = some (svc, i, since)) :
    sessionTimeout s = setSession none (eraseSlot i (advanceTime (since + 300000000000) s)) := by
  have hnow : (advanceTime (since + 300000000000) s).ldr.session = some (svc, i, since) := by rw [advanceTime_ldr, h]
  rw [← dropSession_of_session hnow, sessionTimeout, h]

end Sys2Proof.Machine

/-! ### R294 -/

namespace Sys2Proof.Claims

open Sys2Proof.Machine

/-- Settles O34: the clock moves up to 300 s after the session's last command, which touches neither slots nor session; then the
session's slot is erased and the session closed. -/
theorem sessionTimeout : Obligations.SessionTimeout := by
  unfold Obligations.SessionTimeout
  intro s svc i since hsession
  have hrun := (exec_sessionTimeout s).trans (congrArg _ (sessionTimeout_of_session hsession))
  have hldr := advanceTime_ldr s (since + 300000000000)
  obtain ⟨hpassed, htime⟩ := passedUntil_advanceTime (since + 300000000000) s
  refine ⟨_, hrun, rfl, ?_, fun j hj => ?_, ?_, _, hpassed, setSession_eraseSlot_of_ldr i hldr⟩
  · rw [slot_setSession, slot_eraseSlot, if_pos rfl]
  · rw [slot_setSession, slot_eraseSlot, if_neg hj.symm, slot_of_ldr hldr]
  · rw [setSession_frame, eraseSlot_frame, htime]

end Sys2Proof.Claims

/-! ### Fields of a byte string -/

namespace Sys2Proof

@[simp] theorem bytesAt_length (l : List Byte) (off n : Nat) : (bytesAt l off n).length = n := by
  simp [bytesAt]

/-- Byte `i` of the bytes from an offset, 0 beyond the end. -/
theorem getD_bytesAt (l : List Byte) (off : Nat) {n i : Nat} (hi : i < n) :
    (bytesAt l off n).getD i 0 = l.getD (off + i) 0 := by
  unfold bytesAt
  by_cases hin : off + i < l.length
  · have htaken : i < ((l.drop off).take n).length := by simp; omega
    rw [List.getD_append _ _ _ _ htaken]
    simp [List.getD_eq_getElem?_getD, hi]
  · have hpad : ((l.drop off).take n).length ≤ i := by simp; omega
    rw [List.getD_append_right _ _ _ _ hpad, List.getD_eq_default l 0 (Nat.not_lt.mp hin),
      List.getD_eq_getElem?_getD, List.getElem?_getD_replicate_default_eq]

theorem leAt_lt (l : List Byte) (off n : Nat) : leAt l off n < 256 ^ n := by
  simpa [leAt] using leNat_lt (bytesAt l off n)

/-- A byte of a word that holds a number. -/
theorem extractLsb'_ofNat_byte {w i : Nat} (x : Nat) (hi : 8 * i + 8 ≤ w) :
    (BitVec.ofNat w x).extractLsb' (8 * i) 8 = BitVec.ofNat 8 (x / 256 ^ i) := by
  have hpow : (256 : Nat) ^ i = 2 ^ (8 * i) := by rw [Nat.pow_mul]
  refine BitVec.eq_of_getLsbD_eq fun k hk => ?_
  have hkw : 8 * i + k < w := by omega
  rw [BitVec.getLsbD_extractLsb', BitVec.getLsbD_ofNat, BitVec.getLsbD_ofNat, hpow, Nat.testBit_div_two_pow, Nat.add_comm k]
  simp [hk, hkw]

/-- A word made of four bytes of a byte string holds each of them in its place (R4). -/
theorem extractLsb'_leAt (l : List Byte) (off : Nat) {i : Nat} (hi : i < 4) :
    (BitVec.ofNat 32 (leAt l off 4)).extractLsb' (8 * i) 8 = l.getD (off + i) 0 := by
  have hbytes : leBytes 4 (leAt l off 4) = bytesAt l off 4 := by
    simpa [leAt] using leBytes_leNat (bytesAt l off 4)
  rw [extractLsb'_ofNat_byte _ (by omega), ← Machine.getD_leBytes _ hi, hbytes, getD_bytesAt l off hi]

/-- Two numbers of 16 bits make up a register of two halves. -/
theorem toNat_at32_halves {x y : Nat} (hx : x < 65536) (hy : y < 65536) :
    (at32 x 16 ||| at32 y 0).toNat = x * 65536 + y := by
  have hor : x <<< 16 ||| y = x * 65536 + y := by
    rw [← Nat.shiftLeft_add_eq_or_of_lt (by omega), Nat.shiftLeft_eq]
  simp only [at32, Nat.shiftLeft_zero, ← BitVec.ofNat_or, hor, BitVec.toNat_ofNat]
  omega

end Sys2Proof

/-! ### The elements of one register of a lane, written in turn -/

namespace Sys2Proof.Machine

/-- The first `n` elements of `LANE[i]`'s register of that name, written in turn. -/
def setElems (m : RegName) (i : Nat) (v : Nat → Word) (n : Nat) (s : State) : State :=
  (List.range n).foldl (fun s j => s.setReg m i j (v j)) s

theorem setElems_succ (m : RegName) (i : Nat) (v : Nat → Word) (n : Nat) (s : State) :
    setElems m i v (n + 1) s = (setElems m i v n s).setReg m i n (v n) := by
  simp [setElems, List.range_succ]

/-- A write of a register adds no change beyond the registers. -/
theorem setReg_eq_regs {s u : State} (n : RegName) (i j : Nat) (v : Word) (h : u = { s with regs := u.regs }) :
    u.setReg n i j v = { s with regs := (u.setReg n i j v).regs } :=
  congrArg (fun w : State => w.setReg n i j v) h

theorem setElems_eq_regs (m : RegName) (i : Nat) (v : Nat → Word) (n : Nat) (s : State) :
    setElems m i v n s = { s with regs := (setElems m i v n s).regs } := by
  induction n with
  | zero => rfl
  | succ n ih =>
    rw [setElems_succ]
    exact setReg_eq_regs m i n (v n) ih

section

variable {m : RegName} {i n : Nat} (v : Nat → Word) (s : State) (hi : i < m.row.icount) (hn : n ≤ m.row.jcount)
include hi hn

theorem reg_setElems {j : Nat} (hj : j < n) : (setElems m i v n s).reg m i j = v j := by
  induction n with
  | zero => omega
  | succ n ih =>
    rw [setElems_succ]
    rcases Nat.lt_succ_iff_lt_or_eq.mp hj with hlt | rfl
    · rw [reg_setReg_elem _ _ hi (by omega) hi (by omega) (by omega), ih (by omega) hlt]
    · rw [reg_setReg_self]

theorem reg_setElems_cell {k j : Nat} (hk : k < m.row.icount) (hki : k ≠ i) (hj : j < m.row.jcount) :
    (setElems m i v n s).reg m k j = s.reg m k j := by
  induction n with
  | zero => rfl
  | succ n ih => rw [setElems_succ, reg_setReg_elem _ _ hi (by omega) hk hj (by tauto), ih (by omega)]

theorem RegsSame.setElems : RegsSame [m] s (setElems m i v n s) := by
  induction n with
  | zero => exact .refl s _
  | succ n ih =>
    rw [setElems_succ]
    exact (ih (by omega)).trans (.setReg _ _ hi (by omega))

end

/-! ### A STATUS message -/

/-- The words of STATUSRX that a payload fills (R365). -/
def statusWords (b : List Byte) (i : Nat) : Word := BitVec.ofNat 32 (leAt b (4 * i) 4)

/-- STATUSINFO of a message (R383). -/
def statusInfo (m : List Byte) : Word := at32 (leAt m 2 2) 16 ||| at32 (leAt m 14 2) 0

theorem statusMessage_eq (l : Nat) (m : List Byte) (s : State) : statusMessage l m s =
    (setElems .statusrx l (statusWords (Claims.payloadOf m)) 16 s).setReg .statusinfo l 0 (statusInfo m) := rfl

theorem extractLsb'_statusWords (p : List Byte) (b : Nat) :
    (statusWords p (b / 4)).extractLsb' (8 * (b % 4)) 8 = p.getD b 0 := by
  rw [statusWords, extractLsb'_leAt _ _ (by omega), Nat.div_add_mod]

theorem toNat_statusInfo (m : List Byte) : (statusInfo m).toNat = leAt m 2 2 * 65536 + leAt m 14 2 :=
  toNat_at32_halves (leAt_lt m 2 2) (leAt_lt m 14 2)

theorem fld_statusInfo_stream (m : List Byte) : fld (statusInfo m) 31 16 = leAt m 2 2 := by
  have hstream := leAt_lt m 2 2
  have hlength := leAt_lt m 14 2
  rw [fld, toNat_statusInfo, Nat.shiftRight_eq_div_pow]
  omega

theorem fld_statusInfo_length {m : List Byte} (h : leAt m 14 2 ≤ 64) : fld (statusInfo m) 6 0 = leAt m 14 2 := by
  rw [fld, toNat_statusInfo, Nat.shiftRight_zero]
  omega

/-- A STATUS message of at most 64 bytes that passes the checks of length, CRC, type and flags fails none of R360. -/
theorem messageFail_status {s : State} {l : Fin 32} {m : List Byte} (h : Claims.Passes s l m 4 1) (hn : leAt m 14 2 ≤ 64) :
    messageFail s l m false = none := by
  obtain ⟨-, hlength, hlimit, hcrc, htype, hflags⟩ := h
  have hzero : leAt m 1 1 = 0 := by omega
  simp [messageFail, ← hlength, hcrc, htype, hzero, hn, Nat.not_lt.mpr hlimit]

theorem exec_status {s : State} {l : Fin 32} {m : List Byte} (h : Claims.Passes s l m 4 1) (hn : leAt m 14 2 ≤ 64) :
    exec (.status l m) s = .next (statusMessage l m s) := by
  have hfail := messageFail_status h hn
  obtain ⟨hlane, -, -, -, htype, -⟩ := h
  have hrun : exec (.status l m) s = .next (receiveMessage l 4 m false s) := rfl
  rw [hrun, receiveMessage, hlane, hfail, acceptMessage, htype]
  rfl

end Sys2Proof.Machine

/-! ### R365 -/

namespace Sys2Proof.Claims

open Sys2Proof.Machine

/-- Settles O40: the message passes the checks, so the words of its padded payload are written to STATUSRX in turn, and its
stream and length to STATUSINFO. -/
theorem statusMessages : Obligations.StatusMessages := by
  unfold Obligations.StatusMessages
  intro s l m hpasses hn
  have hi : (l : Nat) < RegName.statusrx.row.icount := l.isLt
  have hinfo : (l : Nat) < RegName.statusinfo.row.icount := l.isLt
  have hj : 0 < RegName.statusinfo.row.jcount := Nat.one_pos
  have hname : RegName.statusrx ≠ .statusinfo := by decide
  have hwords : 16 ≤ RegName.statusrx.row.jcount := le_rfl
  let u := setElems .statusrx l (statusWords (payloadOf m)) 16 s
  have hu : RegsSame [.statusrx] s u := RegsSame.setElems _ s hi hwords
  refine ⟨_, (exec_status hpasses hn).trans (congrArg _ (statusMessage_eq l m s)), fun b hb => ?_, ?_, ?_,
    fun k hk hkl j hj' => ?_, fun k hk hkl => ?_, ?_, ?_⟩
  · have hword : b / 4 < 16 := by omega
    rw [reg_setReg_name u _ hinfo hj hi (hword.trans_le hwords) hname, reg_setElems _ s hi hwords hword, extractLsb'_statusWords]
  · rw [State.rf, reg_setReg_self, fld_statusInfo_stream]
  · rw [State.rf, reg_setReg_self, fld_statusInfo_length hn]
  · rw [reg_setReg_name u _ hinfo hj hk hj' hname, reg_setElems_cell _ s hi hwords hk hkl hj']
  · rw [reg_setReg_elem u _ hinfo hj hk hj (fun h => hkl h.1), hu _ (by decide) k hk 0 hj]
  · exact (hu.weaken (by simp)).trans ((RegsSame.setReg u _ hinfo hj).weaken (by simp))
  · exact setReg_eq_regs _ _ _ _ (setElems_eq_regs _ _ _ _ s)

end Sys2Proof.Claims
